-- ==== Sys2Proof/Word.lean ====
section
/-! DEFINITION. The word types of the block: one operation word length (30_encoding.md R65, R76). -/

namespace Sys2Proof

/-- An operation word: 32 bits, bit 31 the most significant (R65, R66). -/
abbrev Word := BitVec 32

/-- A byte of the tool serialisation of a word (20_memory.md R53). The block itself moves no bytes. -/
abbrev Byte := BitVec 8

end Sys2Proof
end

