-- ==== Sys2Proof/Syntax.lean ====
section
/-! DEFINITION. The operations of the host port as syntax: one constructor per row of spec/opcode_table.json
(30_encoding.md R68). Operand types admit exactly the values the encoding admits, but for SETDIV's divisor 0,
which Instr.wf refuses. -/

namespace Sys2Proof

/-- A channel identity (00_scope.md R16, 41_channel.md R111): `ch0` drives the servo, `ch1` the LED (R3). -/
inductive Channel
  | ch0
  | ch1
deriving DecidableEq, Repr

/-- The thirteen operations (R68). -/
inductive Instr
  /-- CALC imm (R92): `imm` a pulse width in microseconds. (`calc` is a keyword of Lean.) -/
  | calculate (imm : BitVec 16)
  /-- APPLY ch (R100). -/
  | apply (ch : Channel)
  /-- SETDUTY ch, imm (R104): `imm` a pulse width in microseconds. -/
  | setduty (ch : Channel) (imm : BitVec 16)
  /-- SETDIV ch, imm (R105): `div` is `imm[7:0]`, a divisor. -/
  | setdiv (ch : Channel) (div : BitVec 8)
  /-- TICK (R115). -/
  | tick
  /-- REINIT (R120). -/
  | reinit
  /-- ACK imm (R135): `chans` is `imm[1:0]`, bit `ch` standing for channel `ch`. -/
  | ack (chans : BitVec 2)
  /-- IRQMASK imm (R136): `chans` is `imm[1:0]`. -/
  | irqmask (chans : BitVec 2)
  /-- IRQEN imm (R137): `on` is `imm[0]`. -/
  | irqen (on : Bool)
  /-- DELAY imm (R138): a length the model ignores. -/
  | delay (imm : BitVec 16)
  /-- IDLE (R139). -/
  | idle
  /-- LDWRAP imm (R106): a wrap value. -/
  | ldwrap (imm : BitVec 16)
  /-- LDTHR imm (R107): a threshold. -/
  | ldthr (imm : BitVec 16)
deriving DecidableEq, Repr

/-- Why a word encodes no operation (30_encoding.md R80, the reasons of R71 to R74). -/
inductive IllegalReason
  /-- R71: operation code 0x0, 0xE or 0xF. -/
  | reservedOpcode
  /-- R72: `z`, or an unused `ch` or `imm` bit, is not 0. -/
  | reservedBits
  /-- R73: a channel operation whose `ch` is 2 or more. -/
  | badChannel
  /-- R74: a SETDIV whose `imm` is 0 or above 255. -/
  | badImmediate
deriving DecidableEq, Repr

end Sys2Proof
end

