-- ==== Sys2Proof/WellFormed.lean ====
section
/-! DEFINITION. Which terms of Instr are operations of the block. The operand types leave one check
(30_encoding.md R69's extra condition, R74). A configuration's well-formedness (00_scope.md R17) is Config.wf, in
Machine/Params.lean beside the WRAP it speaks of. -/

namespace Sys2Proof

/-- Only a SETDIV can be ill formed: its divisor must not be 0 (R74). -/
def Instr.wf : Instr → Bool
  | .setdiv _ div => div != 0#8
  | .calculate _ => true
  | .apply _ => true
  | .setduty _ _ => true
  | .tick => true
  | .reinit => true
  | .ack _ => true
  | .irqmask _ => true
  | .irqen _ => true
  | .delay _ => true
  | .idle => true
  | .ldwrap _ => true
  | .ldthr _ => true

end Sys2Proof
end

