-- ==== Sys2Proof/Decode.lean ====
section
/-! DEFINITION. Format O (30_encoding.md R66) read and written: the decoder of R70, total on every word and refusing
by name, the encoder from the same tables (R66, R68), the opcode table of R69 as rows, and the byte serialisation of
20_memory.md R53. -/

namespace Sys2Proof

/-! ## The fields of format O (R66, R67) -/

/-- `op = word[31:28]`. -/
def opField (w : Word) : BitVec 4 := w.extractLsb' 28 4

/-- `ch = word[27:24]`. -/
def chField (w : Word) : BitVec 4 := w.extractLsb' 24 4

/-- `z = word[23:16]`. -/
def zField (w : Word) : BitVec 8 := w.extractLsb' 16 8

/-- `imm = word[15:0]`. -/
def immField (w : Word) : BitVec 16 := w.extractLsb' 0 16

/-- A word put together from its fields. -/
def formatO (op ch : BitVec 4) (z : BitVec 8) (imm : BitVec 16) : Word := op ++ ch ++ z ++ imm

/-! ## The checks of R70, each refusing by name or handing on what it read -/

/-- `z` must be 0 (R72). -/
def zeroZ (w : Word) (k : Except IllegalReason Instr) : Except IllegalReason Instr :=
  if zField w = 0#8 then k else .error .reservedBits

/-- An operation that takes no channel has `ch` = 0 (R72). -/
def zeroCh (w : Word) (k : Except IllegalReason Instr) : Except IllegalReason Instr :=
  if chField w = 0#4 then k else .error .reservedBits

/-- An operation that takes a channel has `ch` 0 or 1 (R73). -/
def readCh (w : Word) (k : Channel → Except IllegalReason Instr) : Except IllegalReason Instr :=
  if chField w = 0#4 then k .ch0 else if chField w = 1#4 then k .ch1 else .error .badChannel

/-- An operation that takes no immediate has `imm` = 0 (R72). -/
def zeroImm (w : Word) (k : Except IllegalReason Instr) : Except IllegalReason Instr :=
  if immField w = 0#16 then k else .error .reservedBits

/-- ACK and IRQMASK use `imm[1:0]`, and `imm[15:2]` must be 0 (R72). -/
def readChanSet (w : Word) (k : BitVec 2 → Except IllegalReason Instr) : Except IllegalReason Instr :=
  if (immField w).extractLsb' 2 14 = 0#14 then k ((immField w).extractLsb' 0 2) else .error .reservedBits

/-- IRQEN uses `imm[0]`, and `imm[15:1]` must be 0 (R72). -/
def readFlag (w : Word) (k : Bool → Except IllegalReason Instr) : Except IllegalReason Instr :=
  if (immField w).extractLsb' 1 15 = 0#15 then k ((immField w).getLsbD 0) else .error .reservedBits

/-- SETDIV uses `imm[7:0]`: `imm[15:8]` must be 0 and `imm` must not (R74). -/
def readDivisor (w : Word) (k : BitVec 8 → Except IllegalReason Instr) : Except IllegalReason Instr :=
  if (immField w).extractLsb' 8 8 = 0#8 ∧ immField w ≠ 0#16 then k ((immField w).extractLsb' 0 8)
  else .error .badImmediate

/-- R70: decoding, total on every 32-bit word. The order of the checks is R70's: operation code, `z`, `ch`, `imm`. -/
def decode (w : Word) : Except IllegalReason Instr :=
  match opField w with
  | 0x1#4 => zeroZ w (zeroCh w (.ok (.calculate (immField w))))
  | 0x2#4 => zeroZ w (readCh w fun ch => zeroImm w (.ok (.apply ch)))
  | 0x3#4 => zeroZ w (readCh w fun ch => .ok (.setduty ch (immField w)))
  | 0x4#4 => zeroZ w (readCh w fun ch => readDivisor w fun d => .ok (.setdiv ch d))
  | 0x5#4 => zeroZ w (zeroCh w (zeroImm w (.ok .tick)))
  | 0x6#4 => zeroZ w (zeroCh w (zeroImm w (.ok .reinit)))
  | 0x7#4 => zeroZ w (zeroCh w (readChanSet w fun b => .ok (.ack b)))
  | 0x8#4 => zeroZ w (zeroCh w (readChanSet w fun b => .ok (.irqmask b)))
  | 0x9#4 => zeroZ w (zeroCh w (readFlag w fun b => .ok (.irqen b)))
  | 0xA#4 => zeroZ w (zeroCh w (.ok (.delay (immField w))))
  | 0xB#4 => zeroZ w (zeroCh w (zeroImm w (.ok .idle)))
  | 0xC#4 => zeroZ w (zeroCh w (.ok (.ldwrap (immField w))))
  | 0xD#4 => zeroZ w (zeroCh w (.ok (.ldthr (immField w))))
  | _ => .error .reservedOpcode

/-! ## The encoder -/

/-- The `ch` field of a channel. -/
def Channel.field : Channel → BitVec 4
  | .ch0 => 0#4
  | .ch1 => 1#4

/-- The word of an operation, from R66's fields and R68's codes. -/
def encode : Instr → Word
  | .calculate imm => formatO 0x1#4 0#4 0#8 imm
  | .apply ch => formatO 0x2#4 ch.field 0#8 0#16
  | .setduty ch imm => formatO 0x3#4 ch.field 0#8 imm
  | .setdiv ch div => formatO 0x4#4 ch.field 0#8 (0#8 ++ div)
  | .tick => formatO 0x5#4 0#4 0#8 0#16
  | .reinit => formatO 0x6#4 0#4 0#8 0#16
  | .ack chans => formatO 0x7#4 0#4 0#8 (0#14 ++ chans)
  | .irqmask chans => formatO 0x8#4 0#4 0#8 (0#14 ++ chans)
  | .irqen on => formatO 0x9#4 0#4 0#8 (0#15 ++ BitVec.ofBool on)
  | .delay imm => formatO 0xA#4 0#4 0#8 imm
  | .idle => formatO 0xB#4 0#4 0#8 0#16
  | .ldwrap imm => formatO 0xC#4 0#4 0#8 imm
  | .ldthr imm => formatO 0xD#4 0#4 0#8 imm

/-! ## The opcode table of R69 -/

/-- A row of R69: a word is the operation's when it meets `pattern` on every bit set in `mask` and, for SETDIV, when
`imm[7:0]` is not 0. -/
structure OpcodeRow where
  pattern : Word
  mask : Word
  /-- R69's extra condition. -/
  divisorNonzero : Bool
deriving DecidableEq, Repr

/-- R69's table, in its order. -/
def opcodeTable : List OpcodeRow :=
  [ ⟨0x10000000, 0xFFFF0000, false⟩, ⟨0x20000000, 0xFEFFFFFF, false⟩, ⟨0x30000000, 0xFEFF0000, false⟩,
    ⟨0x40000000, 0xFEFFFF00, true⟩, ⟨0x50000000, 0xFFFFFFFF, false⟩, ⟨0x60000000, 0xFFFFFFFF, false⟩,
    ⟨0x70000000, 0xFFFFFFFC, false⟩, ⟨0x80000000, 0xFFFFFFFC, false⟩, ⟨0x90000000, 0xFFFFFFFE, false⟩,
    ⟨0xA0000000, 0xFFFF0000, false⟩, ⟨0xB0000000, 0xFFFFFFFF, false⟩, ⟨0xC0000000, 0xFFFF0000, false⟩,
    ⟨0xD0000000, 0xFFFF0000, false⟩ ]

/-- The word is the row's (R69). -/
def OpcodeRow.fits (r : OpcodeRow) (w : Word) : Bool :=
  (w &&& r.mask == r.pattern) && (!r.divisorNonzero || w.extractLsb' 0 8 != 0#8)

/-- The row of R69 that an operation's words belong to. -/
def Instr.row : Instr → OpcodeRow
  | .calculate _ => ⟨0x10000000, 0xFFFF0000, false⟩
  | .apply _ => ⟨0x20000000, 0xFEFFFFFF, false⟩
  | .setduty _ _ => ⟨0x30000000, 0xFEFF0000, false⟩
  | .setdiv _ _ => ⟨0x40000000, 0xFEFFFF00, true⟩
  | .tick => ⟨0x50000000, 0xFFFFFFFF, false⟩
  | .reinit => ⟨0x60000000, 0xFFFFFFFF, false⟩
  | .ack _ => ⟨0x70000000, 0xFFFFFFFC, false⟩
  | .irqmask _ => ⟨0x80000000, 0xFFFFFFFC, false⟩
  | .irqen _ => ⟨0x90000000, 0xFFFFFFFE, false⟩
  | .delay _ => ⟨0xA0000000, 0xFFFF0000, false⟩
  | .idle => ⟨0xB0000000, 0xFFFFFFFF, false⟩
  | .ldwrap _ => ⟨0xC0000000, 0xFFFF0000, false⟩
  | .ldthr _ => ⟨0xD0000000, 0xFFFF0000, false⟩

/-! ## Bytes -/

/-- R53: a stored word is its bytes, the least significant first. -/
def wordBytes (w : Word) : List Byte :=
  [w.extractLsb' 0 8, w.extractLsb' 8 8, w.extractLsb' 16 8, w.extractLsb' 24 8]

/-- The word a tool reads from the front of a byte list, with the bytes after it; none where fewer than four stand. -/
def readWord : List Byte → Option (Word × List Byte)
  | b0 :: b1 :: b2 :: b3 :: rest => some (b3 ++ b2 ++ b1 ++ b0, rest)
  | _ => none

/-- Decoding from stored bytes: the operation at the front and the bytes after it. None where the bytes hold no whole
word or the word is illegal. -/
def decodeBytes (bs : List Byte) : Option (Instr × List Byte) :=
  match readWord bs with
  | none => none
  | some (w, rest) =>
    match decode w with
    | .ok i => some (i, rest)
    | .error _ => none

/-- The word whose low `nbits` bits are those of `w` and whose other bits are 0. -/
def tableWord (nbits w : Nat) : Word := BitVec.ofNat 32 (w % 2 ^ nbits)

/-- The instruction the decoder reads from an opcode-table word: the word laid out as bytes (R53), decoded. -/
def decodeTableWord (nbits w : Nat) : Option Instr :=
  (decodeBytes (wordBytes (tableWord nbits w))).map Prod.fst

/-- R77: the first illegal word of a program, as its reason; none for a program that has a run. -/
def firstIllegal : List Word → Option IllegalReason
  | [] => none
  | w :: ws =>
    match decode w with
    | .ok _ => firstIllegal ws
    | .error e => some e

end Sys2Proof
end

