-- ==== Sys2Proof/Config.lean ====
section
/-! DEFINITION. What is fixed for a run: the implementation parameters (00_scope.md R8 to R15, 40_calculator.md R95),
and the one free value, the choice of the next agent (20_memory.md R58, U16). -/

namespace Sys2Proof

/-- `PATH_WIDTH` (R14): the width a duty value is narrowed to when it enters the duty-setting path. -/
inductive PathWidth
  /-- 16, the default. -/
  | bits16
  /-- `none`: no narrowing. -/
  | unlimited
deriving DecidableEq, Repr

/-- `UPDATE_MODE` (R15): when a value written to a running channel takes effect. -/
inductive UpdateMode
  /-- `AT_WRAP`, the default: at the channel's next wrap event. -/
  | atWrap
  /-- `IMMEDIATE`: in the writing step. -/
  | immediate
deriving DecidableEq, Repr

/-- `CALC_PRODUCT_WIDTH` (40_calculator.md R95, D10): how the calculator's product is taken. -/
inductive ProductWidth
  /-- `exact`: on naturals. -/
  | exact
  /-- 32: modulo 2^32, before the division. -/
  | bits32
deriving DecidableEq, Repr

/-- The configuration (00_scope.md section 4). Plain data; which configurations are legal is Config.wf. -/
structure Config where
  /-- `CLOCK_HZ` (R8): the input clock rate, before the prescaler divides it (90_conflicts.md C6). -/
  clockHz : Nat
  /-- `CARRIER_HZ` (R9). -/
  carrierHz : Nat
  /-- `PRESCALER` (R10). -/
  prescaler : Nat
  /-- `LOWER` (R11): the lower bound of the sweep, and the value the first tick forces. -/
  lower : Nat
  /-- `UPPER` (R11). -/
  upper : Nat
  /-- `STEP` (R12). -/
  stepUs : Nat
  /-- `REG_WIDTH` (R13). -/
  regWidth : Nat
  /-- `PATH_WIDTH` (R14). -/
  pathWidth : PathWidth
  /-- `UPDATE_MODE` (R15). -/
  updateMode : UpdateMode
  /-- `CALC_PRODUCT_WIDTH` (R95). -/
  productWidth : ProductWidth
deriving DecidableEq, Repr

/-- The default configuration: R9 to R15's defaults, R8's example clock, R95's `exact`
(95_test_vectors.md, its preamble). DESIGN CHOICE for the clock, which R8 leaves OPEN (entry 5). -/
def Config.default : Config where
  clockHz := 125000000
  carrierHz := 50
  prescaler := 64
  lower := 500
  upper := 2400
  stepUs := 5
  regWidth := 16
  pathWidth := .bits16
  updateMode := .atWrap
  productWidth := .exact

/-- The agents that step the block (10_state.md R20). -/
inductive Agent
  /-- HOST: the foreground program. -/
  | host
  /-- TIMER: the prescaled timer clock. -/
  | timer
  /-- The ISR sequencer: entry and the five phases. -/
  | isr
deriving DecidableEq, Repr, Inhabited

/-- FREE VALUE (entry 2): the agent the environment picks at the `n`-th free choice. 20_memory.md R58: "Which one
is not determined". No body: nothing can be proved of it. -/
opaque Config.freeAgent : Nat → Agent

end Sys2Proof
end

