-- ==== Sys2Proof/Machine/Params.lean ====
section
/-! DEFINITION. What a configuration determines: WRAP and PERIOD_US (40_calculator.md R90, R91), the calculator's
threshold (R93, R95), and which configurations are well formed (00_scope.md R17). -/

namespace Sys2Proof

/-- `WRAP` (R90): the timer counts in one carrier period, truncating. -/
def Config.wrapValue (c : Config) : Nat := c.clockHz / (c.carrierHz * c.prescaler)

/-- `PERIOD_US` (R91): the carrier period in microseconds, truncating. -/
def Config.periodUs (c : Config) : Nat := 1000000 / c.carrierHz

/-- The calculator's product (R93, R95): exact, or modulo 2^32 where `CALC_PRODUCT_WIDTH` = 32. -/
def Config.product (c : Config) (p : Nat) : Nat :=
  match c.productWidth with
  | .exact => c.wrapValue * p
  | .bits32 => (c.wrapValue * p) % 2 ^ 32

/-- `calc_thr` (R93): the product first, then the truncating division. It does not clamp (R97, 90_conflicts.md C1). -/
def Config.calcThr (c : Config) (p : Nat) : Nat := c.product p / c.periodUs

/-- `narrowP` (41_channel.md R104): a duty value at the entry of the duty-setting path. -/
def Config.narrowP (c : Config) (v : Nat) : Nat :=
  match c.pathWidth with
  | .bits16 => v % 2 ^ 16
  | .unlimited => v

/-- A value written to a `REG_WIDTH` register (R101, D11). -/
def Config.narrowReg (c : Config) (v : Nat) : Nat := v % 2 ^ c.regWidth

/-- The configuration is well formed (R17): its seven conditions, in its order. -/
def Config.wf (c : Config) : Bool :=
  decide (1 ≤ c.clockHz) &&
  decide (1 ≤ c.carrierHz ∧ c.carrierHz ≤ 1000000) &&
  decide (1 ≤ c.prescaler) &&
  decide (1 ≤ c.wrapValue ∧ c.wrapValue ≤ 2 ^ c.regWidth - 1) &&
  decide (1 ≤ c.stepUs) &&
  decide (c.stepUs ≤ c.lower ∧ c.lower < c.upper) &&
  decide (c.upper + c.stepUs ≤ 2 ^ 16 - 1)

end Sys2Proof
end

