-- ==== Sys2Proof/Machine/State.lean ====
section
/-! DEFINITION. The state of the block: the register map of 10_state.md R22, whole, with the run's parameters and the
schedule beside it; the ways a step can stop; reset (70_reset_and_hazards.md R190). -/

namespace Sys2Proof.Machine

/-- `DIR` (10_state.md R24). -/
inductive Direction
  /-- 0. -/
  | increasing
  /-- 1. -/
  | decreasing
deriving DecidableEq, Repr

/-- `ISR_PHASE` (10_state.md R37): the handler's next phase, numbered 0 to 4 (60_exceptions.md R160). The values 5 to 7
cannot be reached, and U27 lets a model omit them (entry 9). -/
inductive IsrPhase
  /-- 0: clear the condition (R161). -/
  | ack
  /-- 1: the sweep transition (R162). -/
  | tick
  /-- 2: the servo's channel (R163). -/
  | servo
  /-- 3: the LED's channel (R164). -/
  | led
  /-- 4: the return (R165). -/
  | ret
deriving DecidableEq, Repr

/-- The registers of one channel (10_state.md R29 to R33). The five `REG_WIDTH` registers hold naturals, because
`REG_WIDTH` is a parameter (U2); every write narrows modulo 2^`REG_WIDTH` (41_channel.md R101), and
Safety.ChannelFits says the values stay below it (entry 8). -/
structure ChannelRegs where
  /-- `CH_WRAP` (R29): the programmed period. -/
  wrap : Nat
  /-- `CH_CC` (R29): the programmed compare value. -/
  cc : Nat
  /-- `CH_EN` (R30). -/
  en : Bool
  /-- `CH_DIV` (R31). -/
  div : BitVec 8
  /-- `CH_WRAP_ACT` (R32): the period in use. -/
  wrapAct : Nat
  /-- `CH_CC_ACT` (R32): the compare value in use. -/
  ccAct : Nat
  /-- `CH_CTR` (R33): the timer count. -/
  ctr : Nat
deriving DecidableEq, Repr

/-- The machine. -/
structure State where
  /-- The configuration (00_scope.md section 4): a parameter of the run, which no step writes (entry 1). -/
  cfg : Config
  /-- The host program `P` (R38): a parameter of the run, which no step writes (entry 1). -/
  prog : List Word
  /-- `DUTY` (R23). -/
  duty : BitVec 16
  /-- `DIR` (R24). -/
  dir : Direction
  /-- `INIT` (R25). -/
  init : Bool
  /-- `SERVO_OUT` (R27). -/
  servoOut : BitVec 16
  /-- `LED_OUT` (R27). -/
  ledOut : BitVec 32
  /-- `CALC_WRAP` (R28), a natural. -/
  calcWrap : Nat
  /-- `CALC_THR` (R28), a natural. -/
  calcThr : Nat
  /-- The registers of channel 0, the servo's. -/
  ch0 : ChannelRegs
  /-- The registers of channel 1, the LED's. -/
  ch1 : ChannelRegs
  /-- `INT_RAW` (R34). -/
  intRaw : BitVec 2
  /-- `INT_MASK` (R35). -/
  intMask : BitVec 2
  /-- `IRQ_GEN` (R36). -/
  irqGen : Bool
  /-- `IN_HANDLER` (R37). -/
  inHandler : Bool
  /-- `ISR_PHASE` (R37). -/
  isrPhase : IsrPhase
  /-- `HPC` (R38), a natural. -/
  hpc : Nat
  /-- `HOST_IDLE` (R38). -/
  hostIdle : Bool
  /-- The model's own: the agents still to move, in order (20_memory.md R58, entry 2). -/
  sched : List Agent
  /-- The model's own: how many agents were drawn from Config.freeAgent (entry 2). -/
  draws : Nat
deriving DecidableEq, Repr

/-- How a step can stop with a fault: it cannot. 60_exceptions.md R170: "The block raises no synchronous exception."
The type has no constructor, so no step of the model faults. -/
inductive Fault
deriving DecidableEq, Repr

/-- Why the model gives no run (30_encoding.md R80). Every constructor but the first is raised by Step, before anything
runs, and is safe: it takes runs away and adds none. -/
inductive Refusal
  /-- Raised by exec's arm of an instruction without a meaning. No arm raises it. Safe. -/
  | notModelled (mnemonic : String)
  /-- Raised by every step of a state whose program holds an illegal word (R77): the first such word's reason
  (entry 7). Safe. -/
  | illegalWord (reason : IllegalReason)
  /-- `BadConfig`: raised by every step of a state whose configuration is not well formed (00_scope.md R17). Safe. -/
  | badConfig
deriving DecidableEq, Repr

/-- A channel at reset (R190): disabled, its registers at 0 and its prescaler 1. -/
def ChannelRegs.reset : ChannelRegs where
  wrap := 0
  cc := 0
  en := false
  div := 1#8
  wrapAct := 0
  ccAct := 0
  ctr := 0

/-- Reset (R190) under a configuration, with a host program. `DUTY` is `LOWER` (R22, R26). -/
def State.resetWith (cfg : Config) (prog : List Word) : State where
  cfg := cfg
  prog := prog
  duty := BitVec.ofNat 16 cfg.lower
  dir := .increasing
  init := false
  servoOut := 0#16
  ledOut := 0#32
  calcWrap := 0
  calcThr := 0
  ch0 := .reset
  ch1 := .reset
  intRaw := 0#2
  intMask := 0#2
  irqGen := false
  inHandler := false
  isrPhase := .ack
  hpc := 0
  hostIdle := false
  sched := []
  draws := 0

/-- The machine right after reset: the default configuration and no program loaded (entry 5). -/
def State.reset : State := .resetWith .default []

/-- The registers of channel `ch`. -/
def State.chan (s : State) : Channel → ChannelRegs
  | .ch0 => s.ch0
  | .ch1 => s.ch1

/-- The state with channel `ch`'s registers replaced. -/
def State.setChan (s : State) (ch : Channel) (c : ChannelRegs) : State :=
  match ch with
  | .ch0 => { s with ch0 := c }
  | .ch1 => { s with ch1 := c }

end Sys2Proof.Machine
end

