-- ==== Sys2Proof/Machine/Operands.lean ====
section
/-! DEFINITION. How an operation reads its operands (30_encoding.md R67): immediates are zero-extended, never scaled,
shifted or sign-extended; a channel bit set has bit `ch` for channel `ch`. -/

namespace Sys2Proof.Machine

/-- `zext_16(imm)`: an immediate as a natural (R67, 00_scope.md R18). -/
def zext16 (imm : BitVec 16) : Nat := imm.toNat

/-- The bit that stands for a channel in `INT_RAW`, `INT_MASK` and the operands of ACK and IRQMASK (R67, R34). -/
def chanBit : Channel → BitVec 2
  | .ch0 => 0b01#2
  | .ch1 => 0b10#2

/-- A channel bit set holds a channel. -/
def hasChan (b : BitVec 2) : Channel → Bool
  | .ch0 => b.getLsbD 0
  | .ch1 => b.getLsbD 1

/-- The sweep's `LOWER` as a `DUTY` value (42_sweep.md R115; exact under R17, entry 13). -/
def lowerDuty (c : Config) : BitVec 16 := BitVec.ofNat 16 c.lower

/-- The sweep's `STEP` as an operand of the 16-bit add and subtract (R115; exact under R17, entry 13). -/
def stepDuty (c : Config) : BitVec 16 := BitVec.ofNat 16 c.stepUs

end Sys2Proof.Machine
end

