-- ==== Sys2Proof/Machine/Flags.lean ====
section
/-! DEFINITION. The flag computations: the sweep's direction (42_sweep.md R119), the period-elapsed condition
(60_exceptions.md R151, 43_control.md R135) and the interrupt line (60_exceptions.md R155). -/

namespace Sys2Proof.Machine

/-- Direction after an add (R119): Decreasing where the RESULT is at or above `UPPER`. -/
def dirAfterAdd (c : Config) (duty' : BitVec 16) : Direction :=
  if c.upper ≤ duty'.toNat then .decreasing else .increasing

/-- Direction after a subtract (R119): Increasing where the RESULT is at or below `LOWER`. -/
def dirAfterSub (c : Config) (duty' : BitVec 16) : Direction :=
  if duty'.toNat ≤ c.lower then .increasing else .decreasing

/-- A timer tick ends the channel's period (R150): it is enabled and its next count reaches the active wrap. -/
def ChannelRegs.wraps (c : ChannelRegs) : Bool := c.en && decide (c.ctr + 1 ≥ c.wrapAct)

/-- The condition bit a timer tick sets for a channel (R151): the channel's bit at a wrap event, else none. -/
def wrapBit (ch : Channel) (c : ChannelRegs) : BitVec 2 := if c.wraps then chanBit ch else 0#2

/-- Write-1-to-clear (R135, D15). -/
def clearBits (raw chans : BitVec 2) : BitVec 2 := raw &&& ~~~chans

/-- The interrupt line `IRQ` (R155), a function of the state. -/
def irq (s : State) : Bool := s.irqGen && (s.intRaw &&& s.intMask != 0#2)

end Sys2Proof.Machine
end

