-- ==== Sys2Proof/Machine/Ops.lean ====
section
/-! DEFINITION. The operations that instructions, the timer and the handler share: the calculator latch
(40_calculator.md R92), the channel write (41_channel.md R101), the duty-setting path (R104), the sweep transition
(42_sweep.md R115), the timer tick and the wrap event (60_exceptions.md R150, R151), taking the interrupt (R156), the
handler's phases (R160) and its return (R165). There is no memory (20_memory.md R50). -/

namespace Sys2Proof.Machine

/-! ## The host's place -/

/-- `HPC <- HPC + 1`, the end of every operation (R38). -/
def State.hostNext (s : State) : State := { s with hpc := s.hpc + 1 }

/-! ## Calculator and channels -/

/-- Latch `(WRAP, calc_thr(p))` in `CALC_WRAP` and `CALC_THR` (R92, R94). -/
def State.latchCalc (s : State) (p : Nat) : State :=
  { s with calcWrap := s.cfg.wrapValue, calcThr := s.cfg.calcThr p }

/-- The active copies take the programmed values (R32). -/
def ChannelRegs.load (c : ChannelRegs) : ChannelRegs := { c with wrapAct := c.wrap, ccAct := c.cc }

/-- The programmed registers take a pair, each narrowed to `REG_WIDTH` (R101). -/
def ChannelRegs.program (cfg : Config) (w t : Nat) (c : ChannelRegs) : ChannelRegs :=
  { c with wrap := cfg.narrowReg w, cc := cfg.narrowReg t }

/-- The channel write on one channel's registers (R101): program the pair; enabling a disabled channel loads the active
copies and starts the count at 0 (R102); a running channel's active copies change now only under `IMMEDIATE` (R103). -/
def ChannelRegs.apply (cfg : Config) (w t : Nat) (c : ChannelRegs) : ChannelRegs :=
  match c.en, cfg.updateMode with
  | false, _ => { (c.program cfg w t).load with ctr := 0, en := true }
  | true, .immediate => (c.program cfg w t).load
  | true, .atWrap => c.program cfg w t

/-- `apply(ch, w, t)` (R101): the one procedure every writer of channel registers uses. -/
def State.applyPair (s : State) (ch : Channel) (w t : Nat) : State :=
  s.setChan ch ((s.chan ch).apply s.cfg w t)

/-- `apply(ch, CALC_WRAP, CALC_THR)`: the latched pair into a channel (R100). -/
def State.applyLatched (s : State) (ch : Channel) : State := s.applyPair ch s.calcWrap s.calcThr

/-- `setduty(ch, v)` (R104): narrow, calculate and latch, apply. Every caller writes the latches (D40). -/
def State.setduty (s : State) (ch : Channel) (v : Nat) : State :=
  (s.latchCalc (s.cfg.narrowP v)).applyLatched ch

/-! ## Sweep -/

/-- Step 1 of the transition (R116): an uninitialized sweep starts from `LOWER`, its direction untouched. -/
def State.tickInit (s : State) : State :=
  if s.init then s else { s with duty := lowerDuty s.cfg, init := true }

/-- Steps 2 and 3 (R117, R118): emit `DUTY` and its exact square. -/
def State.tickEmit (s : State) : State :=
  { s with servoOut := s.duty, ledOut := s.duty.zeroExtend 32 * s.duty.zeroExtend 32 }

/-- Step 4 (R119): advance `DUTY` modulo 2^16 and flip the direction at the bound, on the value after the advance. -/
def State.tickAdvance (s : State) : State :=
  match s.dir with
  | .increasing =>
    { s with duty := s.duty + stepDuty s.cfg, dir := dirAfterAdd s.cfg (s.duty + stepDuty s.cfg) }
  | .decreasing =>
    { s with duty := s.duty - stepDuty s.cfg, dir := dirAfterSub s.cfg (s.duty - stepDuty s.cfg) }

/-- `tick()` (R115). -/
def State.tick (s : State) : State := s.tickInit.tickEmit.tickAdvance

/-! ## Timer -/

/-- `wrap_event` on one channel's registers (R151): the count returns to 0, and under `AT_WRAP` the programmed values
take effect. The condition bit is wrapBit. -/
def ChannelRegs.wrapEvent (mode : UpdateMode) (c : ChannelRegs) : ChannelRegs :=
  match mode with
  | .atWrap => { c.load with ctr := 0 }
  | .immediate => { c with ctr := 0 }

/-- One timer tick on one channel's registers (R150): a wrap event, one more count, or, disabled, nothing (R153). -/
def ChannelRegs.timerTick (mode : UpdateMode) (c : ChannelRegs) : ChannelRegs :=
  if c.wraps then c.wrapEvent mode else if c.en then { c with ctr := c.ctr + 1 } else c

/-- `timer_step()` (R150): both channels advance at once, and each wrap event sets its condition bit, whatever the
mask (R151, R152). -/
def State.timerStep (s : State) : State :=
  { s with
    ch0 := s.ch0.timerTick s.cfg.updateMode
    ch1 := s.ch1.timerTick s.cfg.updateMode
    intRaw := s.intRaw ||| wrapBit .ch0 s.ch0 ||| wrapBit .ch1 s.ch1 }

/-! ## The interrupt -/

/-- TAKING THE INTERRUPT, `isr_enter()` (R156): the handler runs from phase 0. Nothing is saved (R158): the host's
place stays in `HPC`, and no mask or mode changes. -/
def State.isrEnter (s : State) : State := { s with inHandler := true, isrPhase := .ack }

/-- THE RETURN, phase 4 (R165, R174): nothing else is restored. -/
def State.isrReturn (s : State) : State := { s with inHandler := false, isrPhase := .ack }

/-- `phase_ack()` (R161): both conditions are cleared, whatever the mask. -/
def State.isrAck (s : State) : State := { s with intRaw := 0#2 }

/-- The sequencer goes on to phase `p` (R160). -/
def State.toPhase (s : State) (p : IsrPhase) : State := { s with isrPhase := p }

/-- `isr_step()` (R160): the work of the current phase, then the next phase. -/
def State.isrStep (s : State) : State :=
  match s.isrPhase with
  | .ack => s.isrAck.toPhase .tick
  | .tick => s.tick.toPhase .servo
  | .servo => (s.setduty .ch0 s.servoOut.toNat).toPhase .led
  | .led => (s.setduty .ch1 s.ledOut.toNat).toPhase .ret
  | .ret => s.isrReturn

end Sys2Proof.Machine
end

