-- ==== Sys2Proof/Machine/Calculator.lean ====
section
/-! DEFINITION. The meaning of CALC (40_calculator.md). -/

namespace Sys2Proof.Machine

/-- CALC (R92): latch `WRAP` and `calc_thr(imm)`. -/
def execCalc (imm : BitVec 16) (s : State) : Host.Outcome State Fault Refusal :=
  .next (s.latchCalc (zext16 imm)).hostNext

end Sys2Proof.Machine
end

