-- ==== Sys2Proof/Machine/Channels.lean ====
section
/-! DEFINITION. The meanings of APPLY, SETDUTY, SETDIV, LDWRAP and LDTHR (41_channel.md). -/

namespace Sys2Proof.Machine

/-- APPLY (R100): write the latched pair into the channel and enable it. -/
def execApply (ch : Channel) (s : State) : Host.Outcome State Fault Refusal :=
  .next (s.applyLatched ch).hostNext

/-- SETDUTY (R104): the duty-setting path with the immediate. -/
def execSetduty (ch : Channel) (imm : BitVec 16) (s : State) : Host.Outcome State Fault Refusal :=
  .next (s.setduty ch (zext16 imm)).hostNext

/-- SETDIV (R105): the channel's prescaler, which nothing in the model reads (R31). -/
def execSetdiv (ch : Channel) (div : BitVec 8) (s : State) : Host.Outcome State Fault Refusal :=
  .next (s.setChan ch { s.chan ch with div := div }).hostNext

/-- LDWRAP (R106). -/
def execLdwrap (imm : BitVec 16) (s : State) : Host.Outcome State Fault Refusal :=
  .next { s with calcWrap := zext16 imm }.hostNext

/-- LDTHR (R107). -/
def execLdthr (imm : BitVec 16) (s : State) : Host.Outcome State Fault Refusal :=
  .next { s with calcThr := zext16 imm }.hostNext

end Sys2Proof.Machine
end

