-- ==== Sys2Proof/Machine/Control.lean ====
section
/-! DEFINITION. The meanings of ACK, IRQMASK, IRQEN, DELAY and IDLE (43_control.md). -/

namespace Sys2Proof.Machine

/-- ACK (R135): clear the chosen conditions. -/
def execAck (chans : BitVec 2) (s : State) : Host.Outcome State Fault Refusal :=
  .next { s with intRaw := clearBits s.intRaw chans }.hostNext

/-- IRQMASK (R136): choose the monitored channels. -/
def execIrqmask (chans : BitVec 2) (s : State) : Host.Outcome State Fault Refusal :=
  .next { s with intMask := chans }.hostNext

/-- IRQEN (R137): the global enable. -/
def execIrqen (on : Bool) (s : State) : Host.Outcome State Fault Refusal :=
  .next { s with irqGen := on }.hostNext

/-- DELAY (R138): its length is not used (U30), and the model has no time. -/
def execDelay (_imm : BitVec 16) (s : State) : Host.Outcome State Fault Refusal := .next s.hostNext

/-- IDLE (R139): the host has no further step. -/
def execIdle (s : State) : Host.Outcome State Fault Refusal := .next { s with hostIdle := true }.hostNext

end Sys2Proof.Machine
end

