-- ==== Sys2Proof/Machine/Sweep.lean ====
section
/-! DEFINITION. The meanings of TICK and REINIT (42_sweep.md). -/

namespace Sys2Proof.Machine

/-- TICK (R115): one sweep step. -/
def execTick (s : State) : Host.Outcome State Fault Refusal := .next s.tick.hostNext

/-- REINIT (R120): the next tick starts again from `LOWER`; `DUTY` and `DIR` stay (R121). -/
def execReinit (s : State) : Host.Outcome State Fault Refusal := .next { s with init := false }.hostNext

end Sys2Proof.Machine
end

