-- ==== Sys2Proof/Machine/Dispatch.lean ====
section
/-! DEFINITION. What each operation does: one arm per constructor of Instr. -/

namespace Sys2Proof.Machine

/-- One host operation as an atomic step (30_encoding.md R65, 20_memory.md R55). -/
def exec (i : Instr) (s : State) : Host.Outcome State Fault Refusal :=
  match i with
  | .calculate imm => Sys2Proof.Machine.execCalc imm s
  | .apply ch => Sys2Proof.Machine.execApply ch s
  | .setduty ch imm => Sys2Proof.Machine.execSetduty ch imm s
  | .setdiv ch div => Sys2Proof.Machine.execSetdiv ch div s
  | .tick => Sys2Proof.Machine.execTick s
  | .reinit => Sys2Proof.Machine.execReinit s
  | .ack chans => Sys2Proof.Machine.execAck chans s
  | .irqmask chans => Sys2Proof.Machine.execIrqmask chans s
  | .irqen on => Sys2Proof.Machine.execIrqen on s
  | .delay imm => Sys2Proof.Machine.execDelay imm s
  | .idle => Sys2Proof.Machine.execIdle s
  | .ldwrap imm => Sys2Proof.Machine.execLdwrap imm s
  | .ldthr imm => Sys2Proof.Machine.execLdthr imm s

end Sys2Proof.Machine
end

