-- ==== Sys2Proof/Machine/Agents.lean ====
section
/-! DEFINITION. The three agents (10_state.md R20): when each has a step, what its step does, which one moves next
(20_memory.md R58), and the verdict before the run (30_encoding.md R77). Step.lean puts them together. -/

namespace Sys2Proof.Machine

/-- R77, R80: a run is refused before it starts where its configuration is not well formed (00_scope.md R17) or its
program holds an illegal word. The configuration is looked at first (entry 7). -/
def State.verdict (s : State) : Option Refusal :=
  if s.cfg.wf then (firstIllegal s.prog).map .illegalWord else some .badConfig

/-- The host's next word `P[HPC]` (R38); none past the end of the program. -/
def State.fetch (s : State) : Option Word := s.prog[s.hpc]?

/-- When an agent has a step. HOST: not in the handler (60_exceptions.md R157), not idle, and a word left (R38).
TIMER: always (R150). ISR sequencer: in the handler (R160), or the line is high (R156). -/
def enabled (s : State) : Agent → Bool
  | .host => !s.inHandler && !s.hostIdle && decide (s.hpc < s.prog.length)
  | .timer => true
  | .isr => s.inHandler || irq s

/-- A HOST step (R38, R65): the operation the next word encodes. -/
def hostStep (s : State) : Option (Host.Outcome State Fault Refusal) :=
  match s.fetch with
  | none => none
  | some w =>
    match decode w with
    | .ok i => some (exec i s)
    | .error e => some (.refused (.illegalWord e))

/-- A step of the ISR sequencer: a phase while the handler runs (R160), else entry (R156). -/
def State.sequencerStep (s : State) : State := if s.inHandler then s.isrStep else s.isrEnter

/-- One step of one agent; none where it has no step. -/
def agentStep (a : Agent) (s : State) : Option (Host.Outcome State Fault Refusal) :=
  if enabled s a then
    match a with
    | .host => hostStep s
    | .timer => some (.next s.timerStep)
    | .isr => some (.next s.sequencerStep)
  else none

/-- The first agent of a schedule that has a step, with what the schedule holds after it; agents without a step are
passed over (entry 3). -/
def firstEnabled (s : State) : List Agent → Option (Agent × List Agent)
  | [] => none
  | a :: as => if enabled s a then some (a, as) else firstEnabled s as

/-- The agent that moves next, and the state with that choice used up (R58, R171): the schedule's next agent that has a
step; else a freely drawn agent, or TIMER, which always has a step, where the drawn one has none (entry 3). -/
def takeTurn (s : State) : Agent × State :=
  match firstEnabled s s.sched with
  | some (a, rest) => (a, { s with sched := rest })
  | none =>
    (if enabled s (Config.freeAgent s.draws) then Config.freeAgent s.draws else .timer,
      { s with sched := [], draws := s.draws + 1 })

/-- The step of the agent whose turn it is. takeTurn only gives agents that have a step, so the last arm is never
reached (Laws/Step.lean, takeTurn_enabled). -/
def turnStep (a : Agent) (s : State) : Host.Outcome State Fault Refusal :=
  match agentStep a s with
  | some o => o
  | none => .next s.timerStep

end Sys2Proof.Machine
end

