-- ==== Sys2Proof/Machine/Step.lean ====
section
/-! DEFINITION. One step of the machine, and how an instruction is put where the next step runs it. -/

namespace Sys2Proof.Machine

/-- One step of the run (20_memory.md R58): the verdict of 30_encoding.md R77, else one step of the agent whose turn it
is. -/
def step (s : State) : Host.Outcome State Fault Refusal :=
  match s.verdict with
  | some r => .refused r
  | none => turnStep (takeTurn s).1 (takeTurn s).2

/-- The state whose next step runs an instruction's word (entry 6): a program whose words up to `HPC` are that word, the
host not idle, no handler running, and HOST first in the schedule. -/
def State.withFetchWord (s : State) (nbits w : Nat) : State :=
  { s with
    prog := List.replicate (s.hpc + 1) (tableWord nbits w)
    hostIdle := false
    inHandler := false
    isrPhase := .ack
    sched := .host :: s.sched }

end Sys2Proof.Machine
end

