-- ==== Sys2Proof/Machine/Observe.lean ====
section
/-! DEFINITION. What is seen of a state: the register map of 10_state.md R22 (each register's number, width and value,
20_memory.md R51, R52), the outputs (41_channel.md R112, 10_state.md R39), and R22's "written by" column. -/

namespace Sys2Proof.Machine

/-- The registers of R22. -/
inductive Reg
  | duty
  | dir
  | init
  | servoOut
  | ledOut
  | calcWrap
  | calcThr
  | wrap (ch : Channel)
  | cc (ch : Channel)
  | en (ch : Channel)
  | div (ch : Channel)
  | wrapAct (ch : Channel)
  | ccAct (ch : Channel)
  | ctr (ch : Channel)
  | intRaw
  | intMask
  | irqGen
  | inHandler
  | isrPhase
  | hpc
  | hostIdle
deriving DecidableEq, Repr

/-- The number of a channel in a register's number `base + ch` (R22). -/
def Channel.number : Channel → Nat
  | .ch0 => 0
  | .ch1 => 1

/-- A register's number (R22): a name, not an address (R51). -/
def Reg.number : Reg → Nat
  | .duty => 0x00
  | .dir => 0x01
  | .init => 0x02
  | .servoOut => 0x03
  | .ledOut => 0x04
  | .calcWrap => 0x05
  | .calcThr => 0x06
  | .wrap ch => 0x10 + Channel.number ch
  | .cc ch => 0x12 + Channel.number ch
  | .en ch => 0x14 + Channel.number ch
  | .div ch => 0x16 + Channel.number ch
  | .wrapAct ch => 0x18 + Channel.number ch
  | .ccAct ch => 0x1A + Channel.number ch
  | .ctr ch => 0x1C + Channel.number ch
  | .intRaw => 0x20
  | .intMask => 0x21
  | .irqGen => 0x22
  | .inHandler => 0x23
  | .isrPhase => 0x24
  | .hpc => 0x30
  | .hostIdle => 0x31

/-- A register's width in bits (R22); none for the three naturals. -/
def Reg.width (c : Config) : Reg → Option Nat
  | .duty => some 16
  | .dir => some 1
  | .init => some 1
  | .servoOut => some 16
  | .ledOut => some 32
  | .calcWrap => none
  | .calcThr => none
  | .wrap _ => some c.regWidth
  | .cc _ => some c.regWidth
  | .en _ => some 1
  | .div _ => some 8
  | .wrapAct _ => some c.regWidth
  | .ccAct _ => some c.regWidth
  | .ctr _ => some c.regWidth
  | .intRaw => some 2
  | .intMask => some 2
  | .irqGen => some 1
  | .inHandler => some 1
  | .isrPhase => some 3
  | .hpc => none
  | .hostIdle => some 1

/-- `DIR` as its bit: 0 Increasing, 1 Decreasing (R24). -/
def Direction.bit : Direction → Nat
  | .increasing => 0
  | .decreasing => 1

/-- `ISR_PHASE` as its number (R37, 60_exceptions.md R160). -/
def IsrPhase.number : IsrPhase → Nat
  | .ack => 0
  | .tick => 1
  | .servo => 2
  | .led => 3
  | .ret => 4

/-- The value a register holds, as a natural (R18: every quantity is unsigned). -/
def State.read (s : State) : Reg → Nat
  | .duty => s.duty.toNat
  | .dir => Direction.bit s.dir
  | .init => s.init.toNat
  | .servoOut => s.servoOut.toNat
  | .ledOut => s.ledOut.toNat
  | .calcWrap => s.calcWrap
  | .calcThr => s.calcThr
  | .wrap ch => (s.chan ch).wrap
  | .cc ch => (s.chan ch).cc
  | .en ch => (s.chan ch).en.toNat
  | .div ch => (s.chan ch).div.toNat
  | .wrapAct ch => (s.chan ch).wrapAct
  | .ccAct ch => (s.chan ch).ccAct
  | .ctr ch => (s.chan ch).ctr
  | .intRaw => s.intRaw.toNat
  | .intMask => s.intMask.toNat
  | .irqGen => s.irqGen.toNat
  | .inHandler => s.inHandler.toNat
  | .isrPhase => IsrPhase.number s.isrPhase
  | .hpc => s.hpc
  | .hostIdle => s.hostIdle.toNat

/-- `PWM_OUT[ch]` (41_channel.md R112): active high, a disabled channel inactive. -/
def pwmOut (s : State) (ch : Channel) : Bool :=
  (s.chan ch).en && decide ((s.chan ch).ctr < (s.chan ch).ccAct)

/-! ## Who writes what (R22's "written by" column, R21) -/

/-- The registers the channel write touches (41_channel.md R101). -/
def applyWrites (ch : Channel) : List Reg := [.wrap ch, .cc ch, .en ch, .wrapAct ch, .ccAct ch, .ctr ch]

/-- The registers the sweep transition touches (42_sweep.md R115). -/
def sweepWrites : List Reg := [.duty, .dir, .init, .servoOut, .ledOut]

/-- The registers an operation may write. -/
def instrWrites : Instr → List Reg
  | .calculate _ => [.calcWrap, .calcThr, .hpc]
  | .apply ch => .hpc :: applyWrites ch
  | .setduty ch _ => .calcWrap :: .calcThr :: .hpc :: applyWrites ch
  | .setdiv ch _ => [.div ch, .hpc]
  | .tick => .hpc :: sweepWrites
  | .reinit => [.init, .hpc]
  | .ack _ => [.intRaw, .hpc]
  | .irqmask _ => [.intMask, .hpc]
  | .irqen _ => [.irqGen, .hpc]
  | .delay _ => [.hpc]
  | .idle => [.hostIdle, .hpc]
  | .ldwrap _ => [.calcWrap, .hpc]
  | .ldthr _ => [.calcThr, .hpc]

/-- The registers a TIMER step may write (20_memory.md R59). -/
def timerWrites : List Reg :=
  [.ctr .ch0, .wrapAct .ch0, .ccAct .ch0, .ctr .ch1, .wrapAct .ch1, .ccAct .ch1, .intRaw]

/-- The registers a handler phase may write (60_exceptions.md R160 to R165). -/
def phaseWrites : IsrPhase → List Reg
  | .ack => [.intRaw, .isrPhase]
  | .tick => .isrPhase :: sweepWrites
  | .servo => .calcWrap :: .calcThr :: .isrPhase :: applyWrites .ch0
  | .led => .calcWrap :: .calcThr :: .isrPhase :: applyWrites .ch1
  | .ret => [.inHandler, .isrPhase]

/-- The registers entry writes (R156, R158). -/
def entryWrites : List Reg := [.inHandler, .isrPhase]

/-- The run's parameters and the schedule are the same in two states. -/
def SameRun (s t : State) : Prop :=
  t.cfg = s.cfg ∧ t.prog = s.prog ∧ t.sched = s.sched ∧ t.draws = s.draws

/-- Two states agree on every register but those listed, and on all that is no register. There is no memory
(20_memory.md R50), so this is the whole frame. -/
def SameBut (rs : List Reg) (s t : State) : Prop := (∀ r, r ∉ rs → t.read r = s.read r) ∧ SameRun s t

end Sys2Proof.Machine
end

