-- ==== Sys2Proof/Safety.lean ====
section
/-! DEFINITION. What claims say of states and runs: the invariant of the machine, runs as sequences of agent steps, weak
fairness and FAST_ISR (60_exceptions.md R169, R172), and the programs that keep 70_reset_and_hazards.md R204. -/

namespace Sys2Proof.Safety

open Sys2Proof.Machine

/-! ## The invariant -/

/-- A channel's registers fit `REG_WIDTH` (10_state.md R29, R32, R33), its prescaler is legal (R31), and under `AT_WRAP`
an enabled channel counts below its active wrap, 0 behaving as 1 (R33, 60_exceptions.md R154). -/
abbrev ChannelFits (c : Config) (r : ChannelRegs) : Prop :=
  r.wrap < 2 ^ c.regWidth ∧ r.cc < 2 ^ c.regWidth ∧ r.wrapAct < 2 ^ c.regWidth ∧ r.ccAct < 2 ^ c.regWidth ∧
  r.ctr < 2 ^ c.regWidth ∧ r.div ≠ 0#8 ∧
  (c.updateMode = .atWrap → r.en = true → r.ctr < max 1 r.wrapAct)

/-- The sweep's range (42_sweep.md R127): from `LOWER - STEP` up, and below `UPPER` while Increasing, above `LOWER` and
below `UPPER + STEP` while Decreasing. -/
abbrev SweepFits (s : State) : Prop :=
  (s.dir = .increasing → s.cfg.lower ≤ s.duty.toNat + s.cfg.stepUs ∧ s.duty.toNat < s.cfg.upper) ∧
  (s.dir = .decreasing → s.cfg.lower < s.duty.toNat ∧ s.duty.toNat < s.cfg.upper + s.cfg.stepUs)

/-- The calculator latches are below 2^32 with 16-bit registers and a 16-bit path (10_state.md R28, 40_calculator.md
R95). -/
abbrev LatchesFit (s : State) : Prop :=
  s.cfg.regWidth = 16 → s.cfg.pathWidth = .bits16 → s.calcWrap < 2 ^ 32 ∧ s.calcThr < 2 ^ 32

/-- The handler: outside it the next phase is 0 (10_state.md R37), and after its sweep phase the sweep is initialized
(60_exceptions.md R162). -/
abbrev HandlerFits (s : State) : Prop :=
  (s.inHandler = false → s.isrPhase = .ack) ∧
  (s.isrPhase = .servo ∨ s.isrPhase = .led ∨ s.isrPhase = .ret → s.init = true)

/-- The invariant every step keeps. -/
abbrev MachineInv (s : State) : Prop :=
  s.cfg.wf = true ∧ ChannelFits s.cfg s.ch0 ∧ ChannelFits s.cfg s.ch1 ∧ SweepFits s ∧
  s.ledOut.toNat = s.servoOut.toNat * s.servoOut.toNat ∧ LatchesFit s ∧ HandlerFits s ∧ s.hpc ≤ s.prog.length

/-! ## Runs -/

/-- A run (20_memory.md R58, 60_exceptions.md R173): an endless sequence of states, each reached from the one before by
one step of an agent that has one. -/
structure Run where
  states : Nat → State
  agents : Nat → Agent
  admitted : (states 0).verdict = none
  moves : ∀ n, agentStep (agents n) (states n) = some (.next (states (n + 1)))

/-- Weak fairness (60_exceptions.md R172): an agent whose step stays enabled eventually takes it. -/
def Run.WeaklyFair (r : Run) : Prop :=
  ∀ a n, (∀ m, n ≤ m → enabled (r.states m) a = true) → ∃ m, n ≤ m ∧ r.agents m = a

/-- The `n`-th step is ISR entry (R156). -/
def Run.entryAt (r : Run) (n : Nat) : Bool := r.agents n == .isr && !(r.states n).inHandler

/-- The `n`-th step is phase 4 (R165). -/
def Run.returnAt (r : Run) (n : Nat) : Bool :=
  r.agents n == .isr && (r.states n).inHandler && (r.states n).isrPhase == .ret

/-- The `n`-th step sets a condition bit that was 0 (R152). -/
def Run.setsAt (r : Run) (n : Nat) : Bool := (r.states (n + 1)).intRaw &&& ~~~(r.states n).intRaw != 0#2

/-- The `n`-th step raises the line (R155). -/
def Run.raisesAt (r : Run) (n : Nat) : Bool := !irq (r.states n) && irq (r.states (n + 1))

/-- How many of the first `n` steps a test picks. -/
def countBelow (p : Nat → Bool) (n : Nat) : Nat := (List.range n).countP p

/-- The `n`-th step raises the line and the `e`-th is the entry it causes: the first entry after it, the line high all
the way to it. Where a host operation takes the line down in between, the later raise causes the entry. -/
def Run.causesEntry (r : Run) (n e : Nat) : Prop :=
  n < e ∧ r.raisesAt n = true ∧ r.entryAt e = true ∧ (∀ i, n < i → i < e → r.entryAt i = false) ∧
  ∀ i, n < i → i ≤ e → irq (r.states i) = true

/-- `FAST_ISR(k)` (R169), a premise a claim may take: at most `k` TIMER steps between a step that raises the line and the
phase 4 that follows the entry it causes, with `k` below the period `w` (entry 11). -/
def Run.FastIsr (r : Run) (k w : Nat) : Prop :=
  k < w ∧
  ∀ n e m, r.causesEntry n e → e < m → r.returnAt m = true → (∀ i, e < i → i < m → r.returnAt i = false) →
    countBelow (fun i => decide (n < i) && r.agents i == .timer) m ≤ k

/-! ## Programs that keep the single-writer rule -/

/-- The operations R204 keeps the host from issuing after arming. R204 lists REINIT among them and then excepts the
re-arming case that REINIT models (42_sweep.md R120); DESIGN CHOICE: REINIT is one of them here (entry 19). -/
def writesAfterArming : Instr → Bool
  | .calculate _ => true
  | .apply _ => true
  | .setduty _ _ => true
  | .setdiv _ _ => true
  | .tick => true
  | .reinit => true
  | .ack _ => false
  | .irqmask _ => false
  | .irqen _ => false
  | .delay _ => false
  | .idle => false
  | .ldwrap _ => true
  | .ldthr _ => true

/-- Single writer after arming (R204): after an IRQEN 1 none of those operations. DESIGN CHOICE: R204's exception for the
re-arming case is not made, so every REINIT after an IRQEN 1 breaks the rule (entry 19). -/
def singleWriter : List Instr → Bool
  | [] => true
  | .irqen true :: rest => rest.all fun i => !writesAfterArming i
  | _ :: rest => singleWriter rest

end Sys2Proof.Safety
end

