-- ==== Sys2Proof/Certificates/Slice0/Obligations.lean ====
section
/-! DEFINITION. The statements for the provers, from the numbered rules of spec/. The block has no memory
(20_memory.md R50), so a frame is a list of registers: SameBut rs s t says that t agrees with s on every register of
10_state.md R22 outside rs, on the configuration, the program and the schedule. Every `exec … = .next t` under an ∃ is the
operation's completion: no operation has a form, an operand or a state on which it does not complete.

Rules the spec itself marks [derived: …] are its inferences from other rules: R69, R81, R95 to R98, R108 to R110, the
count in R112, R121, R124 to R129, R152 to R154, R167, R192. Statements of those have basis derived. Which agent moves
next is the model's choice (entries 2 and 3), fairness is a premise on runs (entry 10), and reset is R190's and not R194's
(entry 4). -/

namespace Sys2Proof.Stated

open Sys2Proof.Machine Sys2Proof.Safety

/-! ## Words the statements use -/

/-- The fields of a word as naturals (30_encoding.md R66): op, ch, z, imm. -/
def opNat (w : Word) : Nat := w.toNat / 2 ^ 28
def chNat (w : Word) : Nat := w.toNat / 2 ^ 24 % 2 ^ 4
def zNat (w : Word) : Nat := w.toNat / 2 ^ 16 % 2 ^ 8
def immNat (w : Word) : Nat := w.toNat % 2 ^ 16

/-- R70's checks in R70's order, on naturals. -/
def refusalOrder (w : Word) : Option IllegalReason :=
  if opNat w = 0x0 ∨ opNat w = 0xE ∨ opNat w = 0xF then some .reservedOpcode
  else if zNat w ≠ 0 then some .reservedBits
  else if (opNat w = 2 ∨ opNat w = 3 ∨ opNat w = 4) ∧ chNat w > 1 then some .badChannel
  else if ¬(opNat w = 2 ∨ opNat w = 3 ∨ opNat w = 4) ∧ chNat w ≠ 0 then some .reservedBits
  else if (opNat w = 2 ∨ opNat w = 5 ∨ opNat w = 6 ∨ opNat w = 11) ∧ immNat w ≠ 0 then some .reservedBits
  else if (opNat w = 7 ∨ opNat w = 8) ∧ immNat w / 2 ^ 2 ≠ 0 then some .reservedBits
  else if opNat w = 9 ∧ immNat w / 2 ≠ 0 then some .reservedBits
  else if opNat w = 4 ∧ (immNat w / 2 ^ 8 ≠ 0 ∨ immNat w = 0) then some .badImmediate
  else none

/-- The fields an operation's word has (R67, R68): op, ch, imm. -/
def operandFields : Instr → Nat × Nat × Nat
  | .calculate imm => (0x1, 0, imm.toNat)
  | .apply ch => (0x2, Channel.number ch, 0)
  | .setduty ch imm => (0x3, Channel.number ch, imm.toNat)
  | .setdiv ch d => (0x4, Channel.number ch, d.toNat)
  | .tick => (0x5, 0, 0)
  | .reinit => (0x6, 0, 0)
  | .ack b => (0x7, 0, b.toNat)
  | .irqmask b => (0x8, 0, b.toNat)
  | .irqen on => (0x9, 0, on.toNat)
  | .delay imm => (0xA, 0, imm.toNat)
  | .idle => (0xB, 0, 0)
  | .ldwrap imm => (0xC, 0, imm.toNat)
  | .ldthr imm => (0xD, 0, imm.toNat)

/-- `calc_thr` of R90, R91 and R93, spelled out; with R95's product modulo 2^32 where CALC_PRODUCT_WIDTH is 32. -/
def thresholdOf (c : Config) (p : Nat) : Nat :=
  match c.productWidth with
  | .exact => c.clockHz / (c.carrierHz * c.prescaler) * p / (1000000 / c.carrierHz)
  | .bits32 => c.clockHz / (c.carrierHz * c.prescaler) * p % 2 ^ 32 / (1000000 / c.carrierHz)

/-- `narrowP` of R104. -/
def pathValue (c : Config) (v : Nat) : Nat := if c.pathWidth = .bits16 then v % 2 ^ 16 else v

/-- The product of the calculator is the exact one (R93, R95). -/
def ExactProduct (c : Config) (p : Nat) : Prop := c.productWidth = .exact ∨ c.wrapValue * p < 2 ^ 32

/-- `apply(ch, w, x)` has been done from s to t (R101 to R103). -/
def PairApplied (ch : Channel) (w x : Nat) (s t : State) : Prop :=
  (t.chan ch).wrap = w % 2 ^ s.cfg.regWidth ∧ (t.chan ch).cc = x % 2 ^ s.cfg.regWidth ∧ (t.chan ch).en = true ∧
  ((s.chan ch).en = false →
    (t.chan ch).wrapAct = (t.chan ch).wrap ∧ (t.chan ch).ccAct = (t.chan ch).cc ∧ (t.chan ch).ctr = 0) ∧
  ((s.chan ch).en = true → (t.chan ch).ctr = (s.chan ch).ctr ∧
    (s.cfg.updateMode = .immediate → (t.chan ch).wrapAct = (t.chan ch).wrap ∧ (t.chan ch).ccAct = (t.chan ch).cc) ∧
    (s.cfg.updateMode = .atWrap →
      (t.chan ch).wrapAct = (s.chan ch).wrapAct ∧ (t.chan ch).ccAct = (s.chan ch).ccAct))

/-- The value a tick emits (R116, R117): LOWER on the first tick, else DUTY. -/
def emitted (s : State) : Nat := if s.init then s.duty.toNat else s.cfg.lower

/-- The sweep transition has been done from s to t (R115 to R119). -/
def SweepStepped (s t : State) : Prop :=
  t.init = true ∧ t.servoOut.toNat = emitted s ∧ t.ledOut.toNat = emitted s * emitted s ∧
  (s.dir = .increasing → t.duty.toNat = (emitted s + s.cfg.stepUs) % 2 ^ 16 ∧
    (s.cfg.upper ≤ t.duty.toNat → t.dir = .decreasing) ∧ (t.duty.toNat < s.cfg.upper → t.dir = .increasing)) ∧
  (s.dir = .decreasing → (t.duty.toNat : Int) = ((emitted s : Int) - s.cfg.stepUs) % 2 ^ 16 ∧
    (t.duty.toNat ≤ s.cfg.lower → t.dir = .increasing) ∧ (s.cfg.lower < t.duty.toNat → t.dir = .decreasing))

/-- A channel's active registers do not change while only the TIMER steps: IMMEDIATE, or shadow equal to active. -/
def ActiveSteady (c : Config) (r : ChannelRegs) : Prop :=
  c.updateMode = .immediate ∨ (r.wrap = r.wrapAct ∧ r.cc = r.ccAct)

/-- The sweep parameters of the defaults (42_sweep.md section 3): 500, 2400, 5. -/
def DefaultSweep (c : Config) : Prop := c.lower = 500 ∧ c.upper = 2400 ∧ c.stepUs = 5

/-- The value emitted at tick k (R125), with LOWER = 500, STEP = 5, N = 380. -/
def emittedAt (k : Nat) : Nat :=
  if (k - 1) % 760 ≤ 380 then 500 + 5 * ((k - 1) % 760) else 500 + 5 * (760 - (k - 1) % 760)

/-- The other channel. -/
def otherChan : Channel → Channel
  | .ch0 => .ch1
  | .ch1 => .ch0

/-- The channel an operation acts on, where it acts on one. -/
def chanOf : Instr → Option Channel
  | .apply ch => some ch
  | .setduty ch _ => some ch
  | .setdiv ch _ => some ch
  | .calculate _ => none
  | .tick => none
  | .reinit => none
  | .ack _ => none
  | .irqmask _ => none
  | .irqen _ => none
  | .delay _ => none
  | .idle => none
  | .ldwrap _ => none
  | .ldthr _ => none

/-- n TIMER steps. -/
def ticks (n : Nat) (s : State) : State := State.timerStep^[n] s

/-- DUTY is on the sweep's grid (10_state.md R23): LOWER - STEP plus a multiple of STEP, at most UPPER. -/
def OnGrid (s : State) : Prop :=
  (∃ m, s.duty.toNat + s.cfg.stepUs = s.cfg.lower + s.cfg.stepUs * m) ∧ s.duty.toNat ≤ s.cfg.upper

end Sys2Proof.Stated

open Sys2Proof Sys2Proof.Machine Sys2Proof.Safety Sys2Proof.Stated

/-! ## Encoding -/

/-- Decoding the encoding of a well-formed operation gives it back (R66 to R70): every operation, every operand. -/
def Obligations.DecodeOfEncodeIsTheInstruction : Prop :=
  ∀ i : Instr, i.wf = true → decode (encode i) = .ok i

/-- Each word has one meaning: a word that decodes is the encoding of what it decodes to, and that is well formed. -/
def Obligations.EncodeOfDecodeIsTheWord : Prop :=
  ∀ (w : Word) (i : Instr), decode w = .ok i → encode i = w ∧ i.wf = true

/-- R69: a word encodes an operation exactly when it fits a row of the table, and the operation is that row's. -/
def Obligations.DecodingIsFittingATableRow : Prop :=
  (∀ (w : Word) (i : Instr), decode w = .ok i → i.row ∈ opcodeTable ∧ i.row.fits w = true) ∧
  (∀ (w : Word) (r : OpcodeRow), r ∈ opcodeTable → r.fits w = true → ∃ i, decode w = .ok i ∧ i.row = r)

/-- R70 to R74: which words are refused, and by which name, in R70's order of checks. -/
def Obligations.IllegalWordsAreRefusedByName : Prop :=
  ∀ (w : Word) (e : IllegalReason), decode w = .error e ↔ refusalOrder w = some e

/-- R67, R68: the operation and the operands read are the word's fields, zero-extended, neither scaled nor shifted. -/
def Obligations.OperandsAreTheWordsFields : Prop :=
  ∀ (w : Word) (i : Instr), decode w = .ok i → (opNat w, chNat w, immNat w) = operandFields i ∧ zNat w = 0

/-- R81: the spec's table of words, read and written. -/
def Obligations.SpecWordsDecode : Prop :=
  ∀ p ∈ ([ (.calculate 1470#16, 0x100005BE), (.apply .ch0, 0x20000000), (.apply .ch1, 0x21000000),
      (.setduty .ch0 1470#16, 0x300005BE), (.setduty .ch0 2400#16, 0x30000960), (.setduty .ch0 500#16, 0x300001F4),
      (.setduty .ch1 0#16, 0x31000000), (.setdiv .ch0 64#8, 0x40000040), (.setdiv .ch1 64#8, 0x41000040),
      (.tick, 0x50000000), (.reinit, 0x60000000), (.ack 3#2, 0x70000003), (.irqmask 3#2, 0x80000003),
      (.irqen true, 0x90000001), (.irqen false, 0x90000000), (.delay 500#16, 0xA00001F4), (.idle, 0xB0000000),
      (.ldwrap 39062#16, 0xC0009896), (.ldthr 2871#16, 0xD0000B37) ] : List (Instr × Word)),
    decode p.2 = .ok p.1 ∧ encode p.1 = p.2

/-- R53: a word stored as bytes, the least significant first, is read back, with the bytes after it. -/
def Obligations.StoredWordsAreReadBack : Prop :=
  ∀ (w : Word) (rest : List Byte), readWord (wordBytes w ++ rest) = some (w, rest) ∧
    wordBytes w = (List.range 4).map fun k => BitVec.ofNat 8 (w.toNat / 2 ^ (8 * k))

/-! ## Calculator -/

/-- CALC (R92, with R90, R91, R93, R95): its completion, its result and its frame. That CALC_PRODUCT_WIDTH 32 applies to
a host immediate is the model's reading of R95 (entry 12), and a division by 0 under an ill-formed configuration is the
model's too (entry 15). -/
def Obligations.CalcLatchesThePair : Prop :=
  ∀ (imm : BitVec 16) (s : State), ∃ t, exec (.calculate imm) s = .next t ∧
    t.calcWrap = s.cfg.clockHz / (s.cfg.carrierHz * s.cfg.prescaler) ∧ t.calcThr = thresholdOf s.cfg imm.toNat ∧
    t.hpc = s.hpc + 1 ∧ SameBut [.calcWrap, .calcThr, .hpc] s t

/-- R96: no threshold above the wrap up to the period, under either product width (R95 as entry 12 reads it). -/
def Obligations.ThresholdWithinWrapUpToThePeriod : Prop :=
  ∀ (c : Config) (p : Nat), c.wf = true → p ≤ c.periodUs → c.calcThr p ≤ c.wrapValue

/-- R97: above the period the threshold exceeds the wrap, unclamped; where WRAP < PERIOD_US a width just above the period
gives the wrap itself. -/
def Obligations.ThresholdExceedsWrapPastThePeriod : Prop :=
  (∀ (c : Config) (p : Nat), c.wf = true → ExactProduct c p → c.periodUs < p → c.periodUs ≤ c.wrapValue →
    c.wrapValue < c.calcThr p) ∧
  (∀ c : Config, c.wf = true → ExactProduct c (c.periodUs + 1) → c.wrapValue < c.periodUs →
    c.calcThr (c.periodUs + 1) = c.wrapValue)

/-- R98: monotone, 0 at 0, the wrap at the period. -/
def Obligations.ThresholdIsMonotone : Prop :=
  ∀ c : Config, c.wf = true →
    (∀ p q, ExactProduct c q → p ≤ q → c.calcThr p ≤ c.calcThr q) ∧ c.calcThr 0 = 0 ∧
    (ExactProduct c c.periodUs → c.calcThr c.periodUs = c.wrapValue)

/-- R95: with 16-bit registers and a 16-bit width, a 32-bit datapath computes the exact threshold. The second clause, that
a 32-bit product is taken modulo 2^32 for every width and every REG_WIDTH, is the model's reading of R95 (entry 12). -/
def Obligations.ThirtyTwoBitDatapathIsExact : Prop :=
  (∀ (c : Config) (p : Nat), c.wf = true → c.regWidth = 16 → p < 2 ^ 16 →
    c.wrapValue * p < 2 ^ 32 ∧ c.calcThr p = c.wrapValue * p / c.periodUs ∧ c.calcThr p < 2 ^ 32) ∧
  (∀ (c : Config) (p : Nat), c.productWidth = .bits32 → c.calcThr p = c.wrapValue * p % 2 ^ 32 / c.periodUs)

/-! ## Channels -/

/-- APPLY (R100 to R103): its completion, its result and its frame. -/
def Obligations.ApplyWritesTheLatchedPair : Prop :=
  ∀ (ch : Channel) (s : State), ∃ t, exec (.apply ch) s = .next t ∧ PairApplied ch s.calcWrap s.calcThr s t ∧
    t.hpc = s.hpc + 1 ∧ SameBut [.wrap ch, .cc ch, .en ch, .wrapAct ch, .ccAct ch, .ctr ch, .hpc] s t

/-- SETDUTY (R104, with R90, R93, R95): its completion, its result and its frame. The 32-bit product for a host immediate
is the model's reading of R95 (entry 12), the division by 0 under an ill-formed configuration the model's (entry 15). -/
def Obligations.SetdutyCalculatesAndApplies : Prop :=
  ∀ (ch : Channel) (imm : BitVec 16) (s : State), ∃ t, exec (.setduty ch imm) s = .next t ∧
    t.calcWrap = s.cfg.clockHz / (s.cfg.carrierHz * s.cfg.prescaler) ∧ t.calcThr = thresholdOf s.cfg imm.toNat ∧
    PairApplied ch t.calcWrap t.calcThr s t ∧ t.hpc = s.hpc + 1 ∧
    SameBut [.calcWrap, .calcThr, .wrap ch, .cc ch, .en ch, .wrapAct ch, .ccAct ch, .ctr ch, .hpc] s t

/-- SETDIV (R105): its completion, its result and its frame. R105's operands are 1 to 255; that a term with divisor 0,
which no word decodes to (R74), completes and writes 0 is the model's choice (entry 15). -/
def Obligations.SetdivWritesThePrescaler : Prop :=
  ∀ (ch : Channel) (d : BitVec 8) (s : State), ∃ t, exec (.setdiv ch d) s = .next t ∧ (t.chan ch).div = d ∧
    t.hpc = s.hpc + 1 ∧ SameBut [.div ch, .hpc] s t

/-- LDWRAP and LDTHR (R106, R107): their completion, result and frame. -/
def Obligations.LatchLoadsTakeTheImmediate : Prop :=
  ∀ (imm : BitVec 16) (s : State),
    (∃ t, exec (.ldwrap imm) s = .next t ∧ t.calcWrap = imm.toNat ∧ t.hpc = s.hpc + 1 ∧
      SameBut [.calcWrap, .hpc] s t) ∧
    (∃ t, exec (.ldthr imm) s = .next t ∧ t.calcThr = imm.toNat ∧ t.hpc = s.hpc + 1 ∧ SameBut [.calcThr, .hpc] s t)

/-- R108: a second identical APPLY or SETDUTY changes nothing but HPC. -/
def Obligations.ApplyAndSetdutyAreIdempotent : Prop :=
  ∀ (ch : Channel) (imm : BitVec 16) (s : State), ∀ i ∈ [Instr.apply ch, Instr.setduty ch imm],
    ∃ t, exec i s = .next t ∧ exec i t = .next { t with hpc := t.hpc + 1 }

/-- R110: an operation on one channel writes no register of the other, and an operation on none writes none. -/
def Obligations.ChannelsAreIndependent : Prop :=
  ∀ (i : Instr) (s t : State) (ch : Channel), exec i s = .next t → chanOf i ≠ some ch → t.chan ch = s.chan ch

/-- R30, R109: no step of any agent disables a channel, and only a SETDIV step changes a prescaler. -/
def Obligations.NoStepDisablesAChannel : Prop :=
  ∀ (a : Agent) (s t : State) (ch : Channel), agentStep a s = some (.next t) →
    ((s.chan ch).en = true → (t.chan ch).en = true) ∧
    ((t.chan ch).div ≠ (s.chan ch).div → a = .host ∧ ∃ w d, s.fetch = some w ∧ decode w = .ok (.setdiv ch d))

/-- R112: the output level, and for a steady enabled channel the active ticks of a period: min(C, W). -/
def Obligations.OutputIsActiveForMinOfCompareAndWrap : Prop :=
  (∀ (s : State) (ch : Channel),
    pwmOut s ch = true ↔ (s.chan ch).en = true ∧ (s.chan ch).ctr < (s.chan ch).ccAct) ∧
  (∀ (s : State) (ch : Channel), (s.chan ch).en = true → (s.chan ch).ctr = 0 → 1 ≤ (s.chan ch).wrapAct →
    ActiveSteady s.cfg (s.chan ch) →
    countBelow (fun k => pwmOut (ticks k s) ch) (s.chan ch).wrapAct = min (s.chan ch).ccAct (s.chan ch).wrapAct)

/-! ## Sweep -/

/-- TICK (R115 to R119): its completion, its result and its frame. -/
def Obligations.TickAdvancesTheSweep : Prop :=
  ∀ s : State, s.cfg.wf = true → ∃ t, exec .tick s = .next t ∧ SweepStepped s t ∧ t.hpc = s.hpc + 1 ∧
    SameBut [.duty, .dir, .init, .servoOut, .ledOut, .hpc] s t

/-- REINIT (R120): its completion, its result and its frame. -/
def Obligations.ReinitClearsInit : Prop :=
  ∀ s : State, ∃ t, exec .reinit s = .next t ∧ t.init = false ∧ t.hpc = s.hpc + 1 ∧ SameBut [.init, .hpc] s t

/-- R121: the tick after a REINIT while Decreasing, and the one after it. -/
def Obligations.ReinitWhileDecreasing : Prop :=
  ∀ s : State, s.cfg.wf = true → s.init = false → s.dir = .decreasing →
    ∃ t u, exec .tick s = .next t ∧ exec .tick t = .next u ∧
      t.servoOut.toNat = s.cfg.lower ∧ t.duty.toNat + s.cfg.stepUs = s.cfg.lower ∧ t.dir = .increasing ∧
      u.servoOut.toNat + s.cfg.stepUs = s.cfg.lower ∧ u.duty.toNat = s.cfg.lower ∧ u.dir = .increasing

/-- R125: under the default sweep parameters, from a state with INIT = 0 and DIR = 0, the k-th tick's values. -/
def Obligations.SweepFollowsTheClosedForm : Prop :=
  ∀ (s : State) (k : Nat), DefaultSweep s.cfg → s.init = false → s.dir = .increasing → 1 ≤ k →
    (State.tick^[k] s).servoOut.toNat = emittedAt k ∧
    (State.tick^[k] s).ledOut.toNat = emittedAt k * emittedAt k ∧
    (State.tick^[k] s).duty.toNat = emittedAt (k + 1) ∧ (State.tick^[k] s).init = true ∧
    ((State.tick^[k] s).dir = .decreasing ↔ 380 ≤ k % 760)

/-- R124: the direction flips exactly at the ticks 380·j; it is Decreasing after the odd ones. -/
def Obligations.DirectionFlipsEvery380Ticks : Prop :=
  ∀ (s : State), DefaultSweep s.cfg → s.init = false → s.dir = .increasing →
    (∀ k, 1 ≤ k → ((State.tick^[k] s).dir ≠ (State.tick^[k - 1] s).dir ↔ 380 ∣ k)) ∧
    (∀ j, 1 ≤ j → ((State.tick^[380 * j] s).dir = .decreasing ↔ j % 2 = 1))

/-- R126: in such a run DUTY and SERVO_OUT stay in the bounds, on multiples of STEP above LOWER. -/
def Obligations.SweepStaysInItsBounds : Prop :=
  ∀ (s : State) (k : Nat), DefaultSweep s.cfg → s.init = false → s.dir = .increasing → 1 ≤ k →
    ∀ v ∈ [(State.tick^[k] s).duty.toNat, (State.tick^[k] s).servoOut.toNat],
      s.cfg.lower ≤ v ∧ v ≤ s.cfg.upper ∧ ∃ m, v = s.cfg.lower + m * s.cfg.stepUs

/-- R129: the sweep transition reads nothing but DUTY, DIR, INIT and the configuration, and writes only the sweep's
registers. -/
def Obligations.SweepIsAClosedMachine : Prop :=
  (∀ s t : State, t.cfg = s.cfg → t.duty = s.duty → t.dir = s.dir → t.init = s.init →
    ∀ r ∈ [Reg.duty, .dir, .init, .servoOut, .ledOut], t.tick.read r = s.tick.read r) ∧
  ∀ s : State, SameBut [.duty, .dir, .init, .servoOut, .ledOut] s s.tick

/-! ## Control -/

/-- ACK (R135): its completion, its result and its frame. -/
def Obligations.AckClearsTheChosenConditions : Prop :=
  ∀ (b : BitVec 2) (s : State), ∃ t, exec (.ack b) s = .next t ∧
    (∀ ch, hasChan t.intRaw ch = (hasChan s.intRaw ch && !hasChan b ch)) ∧ t.hpc = s.hpc + 1 ∧
    SameBut [.intRaw, .hpc] s t

/-- IRQMASK and IRQEN (R136, R137): their completion, result and frame. -/
def Obligations.MaskAndEnableTakeTheOperand : Prop :=
  (∀ (b : BitVec 2) (s : State), ∃ t, exec (.irqmask b) s = .next t ∧ t.intMask = b ∧ t.hpc = s.hpc + 1 ∧
    SameBut [.intMask, .hpc] s t) ∧
  (∀ (on : Bool) (s : State), ∃ t, exec (.irqen on) s = .next t ∧ t.irqGen = on ∧ t.hpc = s.hpc + 1 ∧
    SameBut [.irqGen, .hpc] s t)

/-- DELAY (R138): only HPC changes. -/
def Obligations.DelayOnlyMovesHpc : Prop :=
  ∀ (imm : BitVec 16) (s : State), exec (.delay imm) s = .next { s with hpc := s.hpc + 1 }

/-- IDLE (R139): its completion, result and frame, and the host has no step after it. -/
def Obligations.IdleEndsTheHost : Prop :=
  ∀ s : State, ∃ t, exec .idle s = .next t ∧ t.hostIdle = true ∧ t.hpc = s.hpc + 1 ∧
    SameBut [.hostIdle, .hpc] s t ∧ enabled t .host = false ∧ agentStep .host t = none

/-! ## The line, the timer and the handler -/

/-- R155: the interrupt line. -/
def Obligations.LineIsEnabledAndMonitoredCondition : Prop :=
  ∀ s : State, irq s = true ↔
    s.irqGen = true ∧ ∃ ch, hasChan s.intRaw ch = true ∧ hasChan s.intMask ch = true

/-- R150, R151, R153: one TIMER step, channel by channel, and its frame. -/
def Obligations.TimerStepAdvancesEveryEnabledChannel : Prop :=
  ∀ s : State, ∃ t, agentStep .timer s = some (.next t) ∧
    SameBut [.ctr .ch0, .wrapAct .ch0, .ccAct .ch0, .ctr .ch1, .wrapAct .ch1, .ccAct .ch1, .intRaw] s t ∧
    ∀ ch,
      ((s.chan ch).en = false → t.chan ch = s.chan ch ∧ hasChan t.intRaw ch = hasChan s.intRaw ch) ∧
      ((s.chan ch).en = true → (s.chan ch).ctr + 1 < (s.chan ch).wrapAct →
        t.chan ch = { s.chan ch with ctr := (s.chan ch).ctr + 1 } ∧ hasChan t.intRaw ch = hasChan s.intRaw ch) ∧
      ((s.chan ch).en = true → (s.chan ch).wrapAct ≤ (s.chan ch).ctr + 1 →
        (t.chan ch).ctr = 0 ∧ hasChan t.intRaw ch = true ∧
        (s.cfg.updateMode = .atWrap →
          (t.chan ch).wrapAct = (s.chan ch).wrap ∧ (t.chan ch).ccAct = (s.chan ch).cc) ∧
        (s.cfg.updateMode = .immediate →
          (t.chan ch).wrapAct = (s.chan ch).wrapAct ∧ (t.chan ch).ccAct = (s.chan ch).ccAct))

/-- R154: wrap events come exactly every W TIMER steps, and at every step where W is 0 or 1. -/
def Obligations.WrapEventsComeEveryWrapTicks : Prop :=
  (∀ (s : State) (ch : Channel) (n : Nat), (s.chan ch).en = true → (s.chan ch).ctr = 0 → 1 ≤ (s.chan ch).wrapAct →
    ActiveSteady s.cfg (s.chan ch) →
    ((ticks n s).chan ch).ctr = n % (s.chan ch).wrapAct ∧
    hasChan (ticks (n + 1) s).intRaw ch =
      (hasChan (ticks n s).intRaw ch || decide ((s.chan ch).wrapAct ∣ n + 1))) ∧
  (∀ (s : State) (ch : Channel), (s.chan ch).en = true → (s.chan ch).wrapAct ≤ 1 →
    hasChan s.timerStep.intRaw ch = true ∧ (s.timerStep.chan ch).ctr = 0)

/-- R156, R158: the sequencer can enter exactly when the line is high outside the handler; entry sets IN_HANDLER, starts
at phase 0 and writes nothing else. -/
def Obligations.EntryTakesTheInterrupt : Prop :=
  ∀ s : State, s.inHandler = false →
    (enabled s .isr = true ↔ irq s = true) ∧
    (irq s = true → ∃ t, agentStep .isr s = some (.next t) ∧ t.inHandler = true ∧ t.isrPhase = .ack ∧
      SameBut [.inHandler, .isrPhase] s t)

/-- R161: phase 0 clears both conditions, whatever the mask, and so the line. -/
def Obligations.PhaseZeroClearsBothConditions : Prop :=
  ∀ s : State, s.inHandler = true → s.isrPhase = .ack → ∃ t, agentStep .isr s = some (.next t) ∧
    t.intRaw = 0#2 ∧ irq t = false ∧ t.isrPhase = .tick ∧ SameBut [.intRaw, .isrPhase] s t

/-- R162: phase 1 does exactly what a host TICK does, but for HPC. -/
def Obligations.PhaseOneIsATickWithoutHpc : Prop :=
  ∀ s : State, s.inHandler = true → s.isrPhase = .tick → ∃ t u,
    agentStep .isr s = some (.next t) ∧ exec .tick s = .next u ∧ t.isrPhase = .servo ∧
    (∀ r ∈ [Reg.duty, .dir, .init, .servoOut, .ledOut], t.read r = u.read r) ∧
    SameBut [.duty, .dir, .init, .servoOut, .ledOut, .isrPhase] s t

/-- R163, R164, with R104 and R95: phases 2 and 3 send SERVO_OUT to channel 0 and LED_OUT to channel 1 through the
duty-setting path. The 32-bit product for every argument is the model's reading of R95 (entry 12), the division by 0 under
an ill-formed configuration the model's (entry 15). -/
def Obligations.PhasesTwoAndThreeApplyTheOutputs : Prop :=
  (∀ s : State, s.inHandler = true → s.isrPhase = .servo → ∃ t, agentStep .isr s = some (.next t) ∧
    t.isrPhase = .led ∧ t.calcWrap = s.cfg.clockHz / (s.cfg.carrierHz * s.cfg.prescaler) ∧
    t.calcThr = thresholdOf s.cfg (pathValue s.cfg s.servoOut.toNat) ∧ PairApplied .ch0 t.calcWrap t.calcThr s t ∧
    SameBut [.calcWrap, .calcThr, .wrap .ch0, .cc .ch0, .en .ch0, .wrapAct .ch0, .ccAct .ch0, .ctr .ch0, .isrPhase]
      s t) ∧
  (∀ s : State, s.inHandler = true → s.isrPhase = .led → ∃ t, agentStep .isr s = some (.next t) ∧
    t.isrPhase = .ret ∧ t.calcWrap = s.cfg.clockHz / (s.cfg.carrierHz * s.cfg.prescaler) ∧
    t.calcThr = thresholdOf s.cfg (pathValue s.cfg s.ledOut.toNat) ∧ PairApplied .ch1 t.calcWrap t.calcThr s t ∧
    SameBut [.calcWrap, .calcThr, .wrap .ch1, .cc .ch1, .en .ch1, .wrapAct .ch1, .ccAct .ch1, .ctr .ch1, .isrPhase]
      s t)

/-- R165, R174: the return clears IN_HANDLER and ISR_PHASE and restores nothing else; a line that is high enables the
next entry at once. -/
def Obligations.PhaseFourReturns : Prop :=
  ∀ s : State, s.inHandler = true → s.isrPhase = .ret → ∃ t, agentStep .isr s = some (.next t) ∧
    t.inHandler = false ∧ t.isrPhase = .ack ∧ SameBut [.inHandler, .isrPhase] s t ∧
    (irq s = true → enabled t .isr = true)

/-- R160, R164, R123: a whole handler, with any numbers of TIMER steps before each phase, has the sweep's effect of one
tick and leaves both channels programmed from the values that tick emits; the host's place and the interrupt's enables
are untouched. The 32-bit product for every argument is the model's reading of R95 (entry 12; entry 15 for an ill-formed
configuration). -/
def Obligations.HandlerRunsOneTickUnderAnyTimerSteps : Prop :=
  ∀ (s : State) (n0 n1 n2 n3 n4 : Nat), s.inHandler = true → s.isrPhase = .ack →
    ∀ t, t = (ticks n4 (ticks n3 (ticks n2 (ticks n1 (ticks n0 s).sequencerStep).sequencerStep).sequencerStep
      ).sequencerStep).sequencerStep →
    t.inHandler = false ∧
    (∀ r ∈ [Reg.duty, .dir, .init, .servoOut, .ledOut], t.read r = s.tick.read r) ∧
    t.ch0.en = true ∧ t.ch0.cc = thresholdOf s.cfg (pathValue s.cfg t.servoOut.toNat) % 2 ^ s.cfg.regWidth ∧
    t.ch1.en = true ∧ t.ch1.cc = thresholdOf s.cfg (pathValue s.cfg t.ledOut.toNat) % 2 ^ s.cfg.regWidth ∧
    (∀ r ∈ [Reg.hpc, .hostIdle, .intMask, .irqGen], t.read r = s.read r)

/-- R59: the handler reads none of the registers the TIMER writes: two states that differ only in those still differ only
in those after a phase. -/
def Obligations.HandlerDoesNotReadWhatTheTimerWrites : Prop :=
  ∀ s s' t : State, s.inHandler = true →
    SameBut [.ctr .ch0, .wrapAct .ch0, .ccAct .ch0, .ctr .ch1, .wrapAct .ch1, .ccAct .ch1, .intRaw] s s' →
    agentStep .isr s = some (.next t) → ∃ t', agentStep .isr s' = some (.next t') ∧
      SameBut [.ctr .ch0, .wrapAct .ch0, .ccAct .ch0, .ctr .ch1, .wrapAct .ch1, .ccAct .ch1, .intRaw] t t'

/-! ## The machine as a whole -/

/-- R65, R38: where the verdict is clear, the turn is the host's and `P[HPC]` decodes to i, the step is exec of i, at the
state with that turn used up, which differs in the schedule only (the schedule is the model's, entry 2). -/
def Obligations.StepRunsTheDecodedInstruction : Prop :=
  ∀ (s : State) (w : Word) (i : Instr), s.verdict = none → (takeTurn s).1 = .host → s.fetch = some w →
    decode w = .ok i → step s = exec i (takeTurn s).2 ∧
      (takeTurn s).2 = { s with sched := (takeTurn s).2.sched, draws := (takeTurn s).2.draws }

/-- R58, R171: a step is one step of one agent that has one, and every agent that has a step can be the one (the
schedule is the model's, entries 2 and 3). -/
def Obligations.StepIsOneStepOfAnEnabledAgent : Prop :=
  (∀ s t : State, step s = .next t → ∃ a sched draws, enabled s a = true ∧
    agentStep a { s with sched := sched, draws := draws } = some (.next t)) ∧
  (∀ (s : State) (a : Agent) (rest : List Agent), s.verdict = none → enabled s a = true → s.sched = a :: rest →
    some (step s) = agentStep a { s with sched := rest })

/-- R77: a program with an illegal word is refused as a whole, whoever's turn it is and wherever the host stands. -/
def Obligations.ProgramWithAnIllegalWordHasNoRun : Prop :=
  ∀ (s : State) (w : Word) (e : IllegalReason), s.cfg.wf = true → w ∈ s.prog → decode w = .error e →
    ∃ e', step s = .refused (.illegalWord e')

/-- R17: a configuration that breaks one of the seven conditions is refused, and no other is. That the refusal is
badConfig where the program holds an illegal word as well is the model's choice (entry 7). -/
def Obligations.BadConfigurationHasNoRun : Prop :=
  ∀ s : State, step s = .refused .badConfig ↔
    ¬(1 ≤ s.cfg.clockHz ∧ 1 ≤ s.cfg.carrierHz ∧ s.cfg.carrierHz ≤ 1000000 ∧ 1 ≤ s.cfg.prescaler ∧
      1 ≤ s.cfg.clockHz / (s.cfg.carrierHz * s.cfg.prescaler) ∧
      s.cfg.clockHz / (s.cfg.carrierHz * s.cfg.prescaler) < 2 ^ s.cfg.regWidth ∧ 1 ≤ s.cfg.stepUs ∧
      s.cfg.stepUs ≤ s.cfg.lower ∧ s.cfg.lower < s.cfg.upper ∧ s.cfg.upper + s.cfg.stepUs ≤ 65535)

/-- R170, R173, R77: with a well-formed configuration and only legal words every step answers a next state, whatever the
state. -/
def Obligations.AdmittedMachineNeverStops : Prop :=
  ∀ s : State, s.cfg.wf = true → (∀ w ∈ s.prog, ∃ i, decode w = .ok i) → ∃ t, step s = .next t

/-- R21, R22: an operation, a TIMER step and a step of the sequencer write only the registers R22's "written by" column
gives them, and nothing that is no register. -/
def Obligations.OnlyTheNamedWritersWrite : Prop :=
  (∀ (i : Instr) (s t : State), exec i s = .next t → SameBut (instrWrites i) s t) ∧
  (∀ s t : State, agentStep .timer s = some (.next t) → SameBut timerWrites s t) ∧
  (∀ s t : State, agentStep .isr s = some (.next t) →
    SameBut (if s.inHandler then phaseWrites s.isrPhase else entryWrites) s t)

/-- R38, R139: a HOST step moves HPC by one, and no other agent's step moves it; in a step of the machine it moves only
where the host has a step; an idle host stays idle, its HPC where it is. -/
def Obligations.HpcMovesOnlyWithTheHost : Prop :=
  (∀ (a : Agent) (s t : State), agentStep a s = some (.next t) →
    (a = .host → t.hpc = s.hpc + 1) ∧ (a ≠ .host → t.hpc = s.hpc)) ∧
  ∀ s t : State, step s = .next t →
    (t.hpc = s.hpc ∨ (t.hpc = s.hpc + 1 ∧ s.hpc < s.prog.length ∧ s.inHandler = false ∧ s.hostIdle = false)) ∧
    (s.hostIdle = true → t.hostIdle = true ∧ t.hpc = s.hpc)

/-- R157: while the handler runs no step moves the host. -/
def Obligations.HandlerSuspendsTheHost : Prop :=
  ∀ s t : State, s.inHandler = true → agentStep .host s = none ∧
    (step s = .next t → t.hpc = s.hpc ∧ t.hostIdle = s.hostIdle)

/-- R160, R166, R171: handlers do not nest, and a handler's phases run in order. -/
def Obligations.HandlerPhasesRunInOrder : Prop :=
  ∀ s t : State, s.inHandler = true → step s = .next t →
    (t.inHandler = true ∧ t.isrPhase = s.isrPhase) ∨
    (t.inHandler = true ∧ IsrPhase.number t.isrPhase = IsrPhase.number s.isrPhase + 1) ∨
    (s.isrPhase = .ret ∧ t.inHandler = false ∧ t.isrPhase = .ack)

/-- R31, R205: nothing reads CH_DIV: states that differ only in prescalers still do so after any agent's step. -/
def Obligations.NothingReadsThePrescalers : Prop :=
  ∀ (a : Agent) (s s' t : State), SameBut [.div .ch0, .div .ch1] s s' → agentStep a s = some (.next t) →
    ∃ t', agentStep a s' = some (.next t') ∧ SameBut [.div .ch0, .div .ch1] t t'

/-! ## Reset and the invariant -/

/-- R190, R191, R192: what reset leaves, under every configuration and program; no interrupt reaches the handler from
it (reset as entry 4 takes it). -/
def Obligations.ResetLeavesTheBlockQuiet : Prop :=
  ∀ (c : Config) (p : List Word),
    (∀ r, r ≠ .duty → r ≠ .div .ch0 → r ≠ .div .ch1 → (State.resetWith c p).read r = 0) ∧
    (c.wf = true → (State.resetWith c p).read .duty = c.lower) ∧
    (∀ ch, (State.resetWith c p).read (.div ch) = 1) ∧
    enabled (State.resetWith c p) .isr = false ∧ (State.resetWith c p).timerStep = State.resetWith c p ∧
    State.reset.duty = 500#16

/-- The invariant holds at reset, under every well-formed configuration and every program. -/
def Obligations.ResetMeetsTheInvariant : Prop :=
  ∀ (c : Config) (p : List Word), c.wf = true → MachineInv (State.resetWith c p)

/-- Every step keeps the invariant: channel registers in REG_WIDTH and counts below the wrap, legal prescalers, the
sweep's range of R127, the exact square, the latches' bound, the handler's phase, HPC within the program. -/
def Obligations.StepKeepsTheInvariant : Prop :=
  ∀ s t : State, MachineInv s → step s = .next t → MachineInv t

/-- R22's widths hold in every state that meets the invariant. -/
def Obligations.RegistersFitTheirWidths : Prop :=
  ∀ (s : State) (r : Reg) (n : Nat), MachineInv s → r.width s.cfg = some n → s.read r < 2 ^ n

/-- R127: in every run from reset DUTY stays in its range, and then the 16-bit arithmetic of a tick never wraps. -/
def Obligations.DutyNeverWraps : Prop :=
  (∀ (c : Config) (p : List Word) (sched : List Agent) (n : Nat) (t : State), c.wf = true →
    Host.Core.run Sys2Proof.core n { State.resetWith c p with sched := sched } = .next t →
    c.lower ≤ t.duty.toNat + c.stepUs ∧ t.duty.toNat ≤ c.upper + c.stepUs - 1 ∧ t.duty.toNat < 2 ^ 16) ∧
  (∀ s : State, MachineInv s →
    (s.dir = .increasing → s.tick.duty.toNat = emitted s + s.cfg.stepUs) ∧
    (s.dir = .decreasing → s.tick.duty.toNat + s.cfg.stepUs = emitted s))

/-- R23: with aligned bounds every step keeps DUTY on the grid from LOWER - STEP to UPPER. -/
def Obligations.StepKeepsDutyOnTheGrid : Prop :=
  ∀ s t : State, MachineInv s → s.cfg.stepUs ∣ s.cfg.upper - s.cfg.lower → OnGrid s → step s = .next t → OnGrid t

/-! ## Runs -/

/-- R152: a TIMER step leaves a condition bit that is 1 at 1; and from a state with nothing pending and no handler
running, in any run and at any point, the handler has been entered at most as often as a TIMER step set a condition bit
that was 0. -/
def Obligations.EntriesNeverExceedSetConditions : Prop :=
  (∀ (s : State) (ch : Channel), hasChan s.intRaw ch = true → hasChan s.timerStep.intRaw ch = true) ∧
  ∀ r : Run, (r.states 0).intRaw = 0#2 → (r.states 0).inHandler = false →
    ∀ n, countBelow r.entryAt n ≤ countBelow (fun k => r.agents k == .timer && r.setsAt k) n

/-- R172: in a weakly fair run a started handler completes (fairness is a premise, entry 10). -/
def Obligations.StartedHandlerCompletes : Prop :=
  ∀ r : Run, r.WeaklyFair → ∀ n, (r.states n).inHandler = true → ∃ m, n ≤ m ∧ r.returnAt m = true

/-- R172: in a weakly fair run a raised line is served, unless a host operation takes the line down; where the host has
no further step, it is served (fairness is a premise, entry 10). -/
def Obligations.RaisedLineIsServed : Prop :=
  ∀ r : Run, r.WeaklyFair → ∀ n, (r.states n).inHandler = false → irq (r.states n) = true →
    (∃ m, n ≤ m ∧ (r.entryAt m = true ∨ (r.agents m = .host ∧ irq (r.states m) = true ∧
      irq (r.states (m + 1)) = false))) ∧
    ((r.states n).hostIdle = true ∨ (r.states n).prog.length ≤ (r.states n).hpc →
      ∃ m, n ≤ m ∧ r.entryAt m = true)
end

