-- ==== Sys2Proof/Laws/Encoding.lean ====
section
/-! SUPPORT. Format O taken apart and put together: the fields of a word built by formatO, the word built from its own
fields, and the same for the used part of an immediate (30_encoding.md R66, R67). -/

namespace Sys2Proof

/-- The four fields of a word put together from four fields are those. -/
theorem fields_formatO (op ch : BitVec 4) (z : BitVec 8) (imm : BitVec 16) :
    opField (formatO op ch z imm) = op ∧ chField (formatO op ch z imm) = ch ∧ zField (formatO op ch z imm) = z ∧
      immField (formatO op ch z imm) = imm := by
  refine ⟨?_, ?_, ?_, ?_⟩ <;>
  · apply BitVec.eq_of_getLsbD_eq
    intro i hi
    simp only [opField, chField, zField, immField, formatO, BitVec.getLsbD_extractLsb', BitVec.getLsbD_append, hi,
      decide_true, Bool.true_and]
    repeat' split
    all_goals first | omega | (congr 1; omega)

/-- A word is what its fields make. -/
theorem formatO_fields (w : Word) : formatO (opField w) (chField w) (zField w) (immField w) = w := by
  apply BitVec.eq_of_getLsbD_eq
  intro i hi
  simp only [opField, chField, zField, immField, formatO, BitVec.getLsbD_extractLsb', BitVec.getLsbD_append]
  repeat' split
  · simp [*]
  · rw [decide_eq_true (by omega : i - 16 < 8), Bool.true_and]; congr 1; omega
  · rw [decide_eq_true (by omega : i - 16 - 8 < 4), Bool.true_and]; congr 1; omega
  · rw [decide_eq_true (by omega : i - 16 - 8 - 4 < 4), Bool.true_and]; congr 1; omega

/-- A channel bit set in an immediate, read back. -/
theorem imm_of_chanSet (b : BitVec 2) :
    (0#14 ++ b).extractLsb' 2 14 = 0#14 ∧ (0#14 ++ b).extractLsb' 0 2 = b := by
  revert b; decide

/-- A flag in an immediate, read back. -/
theorem imm_of_flag (b : Bool) :
    (0#15 ++ BitVec.ofBool b).extractLsb' 1 15 = 0#15 ∧ (0#15 ++ BitVec.ofBool b).getLsbD 0 = b := by
  revert b; decide

/-- A divisor in an immediate, read back. -/
theorem imm_of_divisor (b : BitVec 8) :
    (0#8 ++ b).extractLsb' 8 8 = 0#8 ∧ (0#8 ++ b).extractLsb' 0 8 = b ∧ ((0#8 ++ b) = 0#16 ↔ b = 0#8) := by
  revert b; decide

/-- An immediate with nothing above bit 1 is its channel bit set. -/
theorem chanSet_of_imm (x : BitVec 16) (h : x.extractLsb' 2 14 = 0#14) : 0#14 ++ x.extractLsb' 0 2 = x := by
  rw [← h]
  refine BitVec.eq_of_getLsbD_eq fun i hi => ?_
  simp only [BitVec.getLsbD_extractLsb', BitVec.getLsbD_append]
  split
  · simp [*]
  · rw [decide_eq_true (by omega), Bool.true_and]; congr 1; omega

/-- An immediate with nothing above bit 0 is its flag. -/
theorem flag_of_imm (x : BitVec 16) (h : x.extractLsb' 1 15 = 0#15) : 0#15 ++ BitVec.ofBool (x.getLsbD 0) = x := by
  rw [← h]
  refine BitVec.eq_of_getLsbD_eq fun i hi => ?_
  simp only [BitVec.getLsbD_extractLsb', BitVec.getLsbD_append]
  split
  · have : i = 0 := by omega
    subst this; simp
  · rw [decide_eq_true (by omega), Bool.true_and]; congr 1; omega

/-- An immediate with nothing above bit 7 is its divisor, not 0 where the immediate is not. -/
theorem divisor_of_imm (x : BitVec 16) (h : x.extractLsb' 8 8 = 0#8) :
    0#8 ++ x.extractLsb' 0 8 = x ∧ (x ≠ 0#16 → x.extractLsb' 0 8 ≠ 0#8) := by
  have key : 0#8 ++ x.extractLsb' 0 8 = x := by
    rw [← h]
    refine BitVec.eq_of_getLsbD_eq fun i hi => ?_
    simp only [BitVec.getLsbD_extractLsb', BitVec.getLsbD_append]
    split
    · simp [*]
    · rw [decide_eq_true (by omega), Bool.true_and]; congr 1; omega
  exact ⟨key, fun hx h0 => hx (by rw [← key, h0]; rfl)⟩

end Sys2Proof
end

