-- ==== Sys2Proof/Laws/State.lean ====
section
/-! SUPPORT. One lemma per field per update of the state, so that no proof unfolds an update; the lemmas of an update
that a match chooses (setChan, tickInit, tickAdvance, applyPair) state the fields it leaves alone. -/

namespace Sys2Proof.Machine

/-! ## hostNext -/

@[simp] theorem State.hostNext_cfg (s : State) : s.hostNext.cfg = s.cfg := rfl
@[simp] theorem State.hostNext_prog (s : State) : s.hostNext.prog = s.prog := rfl
@[simp] theorem State.hostNext_duty (s : State) : s.hostNext.duty = s.duty := rfl
@[simp] theorem State.hostNext_dir (s : State) : s.hostNext.dir = s.dir := rfl
@[simp] theorem State.hostNext_init (s : State) : s.hostNext.init = s.init := rfl
@[simp] theorem State.hostNext_servoOut (s : State) : s.hostNext.servoOut = s.servoOut := rfl
@[simp] theorem State.hostNext_ledOut (s : State) : s.hostNext.ledOut = s.ledOut := rfl
@[simp] theorem State.hostNext_calcWrap (s : State) : s.hostNext.calcWrap = s.calcWrap := rfl
@[simp] theorem State.hostNext_calcThr (s : State) : s.hostNext.calcThr = s.calcThr := rfl
@[simp] theorem State.hostNext_ch0 (s : State) : s.hostNext.ch0 = s.ch0 := rfl
@[simp] theorem State.hostNext_ch1 (s : State) : s.hostNext.ch1 = s.ch1 := rfl
@[simp] theorem State.hostNext_intRaw (s : State) : s.hostNext.intRaw = s.intRaw := rfl
@[simp] theorem State.hostNext_intMask (s : State) : s.hostNext.intMask = s.intMask := rfl
@[simp] theorem State.hostNext_irqGen (s : State) : s.hostNext.irqGen = s.irqGen := rfl
@[simp] theorem State.hostNext_inHandler (s : State) : s.hostNext.inHandler = s.inHandler := rfl
@[simp] theorem State.hostNext_isrPhase (s : State) : s.hostNext.isrPhase = s.isrPhase := rfl
@[simp] theorem State.hostNext_hpc (s : State) : s.hostNext.hpc = s.hpc + 1 := rfl
@[simp] theorem State.hostNext_hostIdle (s : State) : s.hostNext.hostIdle = s.hostIdle := rfl
@[simp] theorem State.hostNext_sched (s : State) : s.hostNext.sched = s.sched := rfl
@[simp] theorem State.hostNext_draws (s : State) : s.hostNext.draws = s.draws := rfl

/-! ## latchCalc -/

@[simp] theorem State.latchCalc_cfg (s : State) (p : Nat) : (s.latchCalc p).cfg = s.cfg := rfl
@[simp] theorem State.latchCalc_prog (s : State) (p : Nat) : (s.latchCalc p).prog = s.prog := rfl
@[simp] theorem State.latchCalc_duty (s : State) (p : Nat) : (s.latchCalc p).duty = s.duty := rfl
@[simp] theorem State.latchCalc_dir (s : State) (p : Nat) : (s.latchCalc p).dir = s.dir := rfl
@[simp] theorem State.latchCalc_init (s : State) (p : Nat) : (s.latchCalc p).init = s.init := rfl
@[simp] theorem State.latchCalc_servoOut (s : State) (p : Nat) : (s.latchCalc p).servoOut = s.servoOut := rfl
@[simp] theorem State.latchCalc_ledOut (s : State) (p : Nat) : (s.latchCalc p).ledOut = s.ledOut := rfl
@[simp] theorem State.latchCalc_calcWrap (s : State) (p : Nat) : (s.latchCalc p).calcWrap = s.cfg.wrapValue := rfl
@[simp] theorem State.latchCalc_calcThr (s : State) (p : Nat) : (s.latchCalc p).calcThr = s.cfg.calcThr p := rfl
@[simp] theorem State.latchCalc_ch0 (s : State) (p : Nat) : (s.latchCalc p).ch0 = s.ch0 := rfl
@[simp] theorem State.latchCalc_ch1 (s : State) (p : Nat) : (s.latchCalc p).ch1 = s.ch1 := rfl
@[simp] theorem State.latchCalc_intRaw (s : State) (p : Nat) : (s.latchCalc p).intRaw = s.intRaw := rfl
@[simp] theorem State.latchCalc_intMask (s : State) (p : Nat) : (s.latchCalc p).intMask = s.intMask := rfl
@[simp] theorem State.latchCalc_irqGen (s : State) (p : Nat) : (s.latchCalc p).irqGen = s.irqGen := rfl
@[simp] theorem State.latchCalc_inHandler (s : State) (p : Nat) : (s.latchCalc p).inHandler = s.inHandler := rfl
@[simp] theorem State.latchCalc_isrPhase (s : State) (p : Nat) : (s.latchCalc p).isrPhase = s.isrPhase := rfl
@[simp] theorem State.latchCalc_hpc (s : State) (p : Nat) : (s.latchCalc p).hpc = s.hpc := rfl
@[simp] theorem State.latchCalc_hostIdle (s : State) (p : Nat) : (s.latchCalc p).hostIdle = s.hostIdle := rfl
@[simp] theorem State.latchCalc_sched (s : State) (p : Nat) : (s.latchCalc p).sched = s.sched := rfl
@[simp] theorem State.latchCalc_draws (s : State) (p : Nat) : (s.latchCalc p).draws = s.draws := rfl

/-! ## tickEmit -/

@[simp] theorem State.tickEmit_cfg (s : State) : s.tickEmit.cfg = s.cfg := rfl
@[simp] theorem State.tickEmit_prog (s : State) : s.tickEmit.prog = s.prog := rfl
@[simp] theorem State.tickEmit_duty (s : State) : s.tickEmit.duty = s.duty := rfl
@[simp] theorem State.tickEmit_dir (s : State) : s.tickEmit.dir = s.dir := rfl
@[simp] theorem State.tickEmit_init (s : State) : s.tickEmit.init = s.init := rfl
@[simp] theorem State.tickEmit_servoOut (s : State) : s.tickEmit.servoOut = s.duty := rfl
@[simp] theorem State.tickEmit_ledOut (s : State) : s.tickEmit.ledOut = s.duty.zeroExtend 32 * s.duty.zeroExtend 32 := rfl
@[simp] theorem State.tickEmit_calcWrap (s : State) : s.tickEmit.calcWrap = s.calcWrap := rfl
@[simp] theorem State.tickEmit_calcThr (s : State) : s.tickEmit.calcThr = s.calcThr := rfl
@[simp] theorem State.tickEmit_ch0 (s : State) : s.tickEmit.ch0 = s.ch0 := rfl
@[simp] theorem State.tickEmit_ch1 (s : State) : s.tickEmit.ch1 = s.ch1 := rfl
@[simp] theorem State.tickEmit_intRaw (s : State) : s.tickEmit.intRaw = s.intRaw := rfl
@[simp] theorem State.tickEmit_intMask (s : State) : s.tickEmit.intMask = s.intMask := rfl
@[simp] theorem State.tickEmit_irqGen (s : State) : s.tickEmit.irqGen = s.irqGen := rfl
@[simp] theorem State.tickEmit_inHandler (s : State) : s.tickEmit.inHandler = s.inHandler := rfl
@[simp] theorem State.tickEmit_isrPhase (s : State) : s.tickEmit.isrPhase = s.isrPhase := rfl
@[simp] theorem State.tickEmit_hpc (s : State) : s.tickEmit.hpc = s.hpc := rfl
@[simp] theorem State.tickEmit_hostIdle (s : State) : s.tickEmit.hostIdle = s.hostIdle := rfl
@[simp] theorem State.tickEmit_sched (s : State) : s.tickEmit.sched = s.sched := rfl
@[simp] theorem State.tickEmit_draws (s : State) : s.tickEmit.draws = s.draws := rfl

/-! ## timerStep -/

@[simp] theorem State.timerStep_cfg (s : State) : s.timerStep.cfg = s.cfg := rfl
@[simp] theorem State.timerStep_prog (s : State) : s.timerStep.prog = s.prog := rfl
@[simp] theorem State.timerStep_duty (s : State) : s.timerStep.duty = s.duty := rfl
@[simp] theorem State.timerStep_dir (s : State) : s.timerStep.dir = s.dir := rfl
@[simp] theorem State.timerStep_init (s : State) : s.timerStep.init = s.init := rfl
@[simp] theorem State.timerStep_servoOut (s : State) : s.timerStep.servoOut = s.servoOut := rfl
@[simp] theorem State.timerStep_ledOut (s : State) : s.timerStep.ledOut = s.ledOut := rfl
@[simp] theorem State.timerStep_calcWrap (s : State) : s.timerStep.calcWrap = s.calcWrap := rfl
@[simp] theorem State.timerStep_calcThr (s : State) : s.timerStep.calcThr = s.calcThr := rfl
@[simp] theorem State.timerStep_ch0 (s : State) : s.timerStep.ch0 = s.ch0.timerTick s.cfg.updateMode := rfl
@[simp] theorem State.timerStep_ch1 (s : State) : s.timerStep.ch1 = s.ch1.timerTick s.cfg.updateMode := rfl
theorem State.timerStep_intRaw (s : State) : s.timerStep.intRaw = s.intRaw ||| wrapBit .ch0 s.ch0 ||| wrapBit .ch1 s.ch1 := rfl
@[simp] theorem State.timerStep_intMask (s : State) : s.timerStep.intMask = s.intMask := rfl
@[simp] theorem State.timerStep_irqGen (s : State) : s.timerStep.irqGen = s.irqGen := rfl
@[simp] theorem State.timerStep_inHandler (s : State) : s.timerStep.inHandler = s.inHandler := rfl
@[simp] theorem State.timerStep_isrPhase (s : State) : s.timerStep.isrPhase = s.isrPhase := rfl
@[simp] theorem State.timerStep_hpc (s : State) : s.timerStep.hpc = s.hpc := rfl
@[simp] theorem State.timerStep_hostIdle (s : State) : s.timerStep.hostIdle = s.hostIdle := rfl
@[simp] theorem State.timerStep_sched (s : State) : s.timerStep.sched = s.sched := rfl
@[simp] theorem State.timerStep_draws (s : State) : s.timerStep.draws = s.draws := rfl

/-! ## isrEnter -/

@[simp] theorem State.isrEnter_cfg (s : State) : s.isrEnter.cfg = s.cfg := rfl
@[simp] theorem State.isrEnter_prog (s : State) : s.isrEnter.prog = s.prog := rfl
@[simp] theorem State.isrEnter_duty (s : State) : s.isrEnter.duty = s.duty := rfl
@[simp] theorem State.isrEnter_dir (s : State) : s.isrEnter.dir = s.dir := rfl
@[simp] theorem State.isrEnter_init (s : State) : s.isrEnter.init = s.init := rfl
@[simp] theorem State.isrEnter_servoOut (s : State) : s.isrEnter.servoOut = s.servoOut := rfl
@[simp] theorem State.isrEnter_ledOut (s : State) : s.isrEnter.ledOut = s.ledOut := rfl
@[simp] theorem State.isrEnter_calcWrap (s : State) : s.isrEnter.calcWrap = s.calcWrap := rfl
@[simp] theorem State.isrEnter_calcThr (s : State) : s.isrEnter.calcThr = s.calcThr := rfl
@[simp] theorem State.isrEnter_ch0 (s : State) : s.isrEnter.ch0 = s.ch0 := rfl
@[simp] theorem State.isrEnter_ch1 (s : State) : s.isrEnter.ch1 = s.ch1 := rfl
@[simp] theorem State.isrEnter_intRaw (s : State) : s.isrEnter.intRaw = s.intRaw := rfl
@[simp] theorem State.isrEnter_intMask (s : State) : s.isrEnter.intMask = s.intMask := rfl
@[simp] theorem State.isrEnter_irqGen (s : State) : s.isrEnter.irqGen = s.irqGen := rfl
@[simp] theorem State.isrEnter_inHandler (s : State) : s.isrEnter.inHandler = true := rfl
@[simp] theorem State.isrEnter_isrPhase (s : State) : s.isrEnter.isrPhase = .ack := rfl
@[simp] theorem State.isrEnter_hpc (s : State) : s.isrEnter.hpc = s.hpc := rfl
@[simp] theorem State.isrEnter_hostIdle (s : State) : s.isrEnter.hostIdle = s.hostIdle := rfl
@[simp] theorem State.isrEnter_sched (s : State) : s.isrEnter.sched = s.sched := rfl
@[simp] theorem State.isrEnter_draws (s : State) : s.isrEnter.draws = s.draws := rfl

/-! ## isrReturn -/

@[simp] theorem State.isrReturn_cfg (s : State) : s.isrReturn.cfg = s.cfg := rfl
@[simp] theorem State.isrReturn_prog (s : State) : s.isrReturn.prog = s.prog := rfl
@[simp] theorem State.isrReturn_duty (s : State) : s.isrReturn.duty = s.duty := rfl
@[simp] theorem State.isrReturn_dir (s : State) : s.isrReturn.dir = s.dir := rfl
@[simp] theorem State.isrReturn_init (s : State) : s.isrReturn.init = s.init := rfl
@[simp] theorem State.isrReturn_servoOut (s : State) : s.isrReturn.servoOut = s.servoOut := rfl
@[simp] theorem State.isrReturn_ledOut (s : State) : s.isrReturn.ledOut = s.ledOut := rfl
@[simp] theorem State.isrReturn_calcWrap (s : State) : s.isrReturn.calcWrap = s.calcWrap := rfl
@[simp] theorem State.isrReturn_calcThr (s : State) : s.isrReturn.calcThr = s.calcThr := rfl
@[simp] theorem State.isrReturn_ch0 (s : State) : s.isrReturn.ch0 = s.ch0 := rfl
@[simp] theorem State.isrReturn_ch1 (s : State) : s.isrReturn.ch1 = s.ch1 := rfl
@[simp] theorem State.isrReturn_intRaw (s : State) : s.isrReturn.intRaw = s.intRaw := rfl
@[simp] theorem State.isrReturn_intMask (s : State) : s.isrReturn.intMask = s.intMask := rfl
@[simp] theorem State.isrReturn_irqGen (s : State) : s.isrReturn.irqGen = s.irqGen := rfl
@[simp] theorem State.isrReturn_inHandler (s : State) : s.isrReturn.inHandler = false := rfl
@[simp] theorem State.isrReturn_isrPhase (s : State) : s.isrReturn.isrPhase = .ack := rfl
@[simp] theorem State.isrReturn_hpc (s : State) : s.isrReturn.hpc = s.hpc := rfl
@[simp] theorem State.isrReturn_hostIdle (s : State) : s.isrReturn.hostIdle = s.hostIdle := rfl
@[simp] theorem State.isrReturn_sched (s : State) : s.isrReturn.sched = s.sched := rfl
@[simp] theorem State.isrReturn_draws (s : State) : s.isrReturn.draws = s.draws := rfl

/-! ## isrAck -/

@[simp] theorem State.isrAck_cfg (s : State) : s.isrAck.cfg = s.cfg := rfl
@[simp] theorem State.isrAck_prog (s : State) : s.isrAck.prog = s.prog := rfl
@[simp] theorem State.isrAck_duty (s : State) : s.isrAck.duty = s.duty := rfl
@[simp] theorem State.isrAck_dir (s : State) : s.isrAck.dir = s.dir := rfl
@[simp] theorem State.isrAck_init (s : State) : s.isrAck.init = s.init := rfl
@[simp] theorem State.isrAck_servoOut (s : State) : s.isrAck.servoOut = s.servoOut := rfl
@[simp] theorem State.isrAck_ledOut (s : State) : s.isrAck.ledOut = s.ledOut := rfl
@[simp] theorem State.isrAck_calcWrap (s : State) : s.isrAck.calcWrap = s.calcWrap := rfl
@[simp] theorem State.isrAck_calcThr (s : State) : s.isrAck.calcThr = s.calcThr := rfl
@[simp] theorem State.isrAck_ch0 (s : State) : s.isrAck.ch0 = s.ch0 := rfl
@[simp] theorem State.isrAck_ch1 (s : State) : s.isrAck.ch1 = s.ch1 := rfl
@[simp] theorem State.isrAck_intRaw (s : State) : s.isrAck.intRaw = 0#2 := rfl
@[simp] theorem State.isrAck_intMask (s : State) : s.isrAck.intMask = s.intMask := rfl
@[simp] theorem State.isrAck_irqGen (s : State) : s.isrAck.irqGen = s.irqGen := rfl
@[simp] theorem State.isrAck_inHandler (s : State) : s.isrAck.inHandler = s.inHandler := rfl
@[simp] theorem State.isrAck_isrPhase (s : State) : s.isrAck.isrPhase = s.isrPhase := rfl
@[simp] theorem State.isrAck_hpc (s : State) : s.isrAck.hpc = s.hpc := rfl
@[simp] theorem State.isrAck_hostIdle (s : State) : s.isrAck.hostIdle = s.hostIdle := rfl
@[simp] theorem State.isrAck_sched (s : State) : s.isrAck.sched = s.sched := rfl
@[simp] theorem State.isrAck_draws (s : State) : s.isrAck.draws = s.draws := rfl

/-! ## toPhase -/

@[simp] theorem State.toPhase_cfg (s : State) (p : IsrPhase) : (s.toPhase p).cfg = s.cfg := rfl
@[simp] theorem State.toPhase_prog (s : State) (p : IsrPhase) : (s.toPhase p).prog = s.prog := rfl
@[simp] theorem State.toPhase_duty (s : State) (p : IsrPhase) : (s.toPhase p).duty = s.duty := rfl
@[simp] theorem State.toPhase_dir (s : State) (p : IsrPhase) : (s.toPhase p).dir = s.dir := rfl
@[simp] theorem State.toPhase_init (s : State) (p : IsrPhase) : (s.toPhase p).init = s.init := rfl
@[simp] theorem State.toPhase_servoOut (s : State) (p : IsrPhase) : (s.toPhase p).servoOut = s.servoOut := rfl
@[simp] theorem State.toPhase_ledOut (s : State) (p : IsrPhase) : (s.toPhase p).ledOut = s.ledOut := rfl
@[simp] theorem State.toPhase_calcWrap (s : State) (p : IsrPhase) : (s.toPhase p).calcWrap = s.calcWrap := rfl
@[simp] theorem State.toPhase_calcThr (s : State) (p : IsrPhase) : (s.toPhase p).calcThr = s.calcThr := rfl
@[simp] theorem State.toPhase_ch0 (s : State) (p : IsrPhase) : (s.toPhase p).ch0 = s.ch0 := rfl
@[simp] theorem State.toPhase_ch1 (s : State) (p : IsrPhase) : (s.toPhase p).ch1 = s.ch1 := rfl
@[simp] theorem State.toPhase_intRaw (s : State) (p : IsrPhase) : (s.toPhase p).intRaw = s.intRaw := rfl
@[simp] theorem State.toPhase_intMask (s : State) (p : IsrPhase) : (s.toPhase p).intMask = s.intMask := rfl
@[simp] theorem State.toPhase_irqGen (s : State) (p : IsrPhase) : (s.toPhase p).irqGen = s.irqGen := rfl
@[simp] theorem State.toPhase_inHandler (s : State) (p : IsrPhase) : (s.toPhase p).inHandler = s.inHandler := rfl
@[simp] theorem State.toPhase_isrPhase (s : State) (p : IsrPhase) : (s.toPhase p).isrPhase = p := rfl
@[simp] theorem State.toPhase_hpc (s : State) (p : IsrPhase) : (s.toPhase p).hpc = s.hpc := rfl
@[simp] theorem State.toPhase_hostIdle (s : State) (p : IsrPhase) : (s.toPhase p).hostIdle = s.hostIdle := rfl
@[simp] theorem State.toPhase_sched (s : State) (p : IsrPhase) : (s.toPhase p).sched = s.sched := rfl
@[simp] theorem State.toPhase_draws (s : State) (p : IsrPhase) : (s.toPhase p).draws = s.draws := rfl

/-! ## setChan -/

@[simp] theorem State.setChan_cfg (s : State) (ch : Channel) (c : ChannelRegs) : (s.setChan ch c).cfg = s.cfg := by
  cases ch <;> rfl
@[simp] theorem State.setChan_prog (s : State) (ch : Channel) (c : ChannelRegs) : (s.setChan ch c).prog = s.prog := by
  cases ch <;> rfl
@[simp] theorem State.setChan_duty (s : State) (ch : Channel) (c : ChannelRegs) : (s.setChan ch c).duty = s.duty := by
  cases ch <;> rfl
@[simp] theorem State.setChan_dir (s : State) (ch : Channel) (c : ChannelRegs) : (s.setChan ch c).dir = s.dir := by
  cases ch <;> rfl
@[simp] theorem State.setChan_init (s : State) (ch : Channel) (c : ChannelRegs) : (s.setChan ch c).init = s.init := by
  cases ch <;> rfl
@[simp] theorem State.setChan_servoOut (s : State) (ch : Channel) (c : ChannelRegs) : (s.setChan ch c).servoOut = s.servoOut := by
  cases ch <;> rfl
@[simp] theorem State.setChan_ledOut (s : State) (ch : Channel) (c : ChannelRegs) : (s.setChan ch c).ledOut = s.ledOut := by
  cases ch <;> rfl
@[simp] theorem State.setChan_calcWrap (s : State) (ch : Channel) (c : ChannelRegs) : (s.setChan ch c).calcWrap = s.calcWrap := by
  cases ch <;> rfl
@[simp] theorem State.setChan_calcThr (s : State) (ch : Channel) (c : ChannelRegs) : (s.setChan ch c).calcThr = s.calcThr := by
  cases ch <;> rfl
@[simp] theorem State.setChan_intRaw (s : State) (ch : Channel) (c : ChannelRegs) : (s.setChan ch c).intRaw = s.intRaw := by
  cases ch <;> rfl
@[simp] theorem State.setChan_intMask (s : State) (ch : Channel) (c : ChannelRegs) : (s.setChan ch c).intMask = s.intMask := by
  cases ch <;> rfl
@[simp] theorem State.setChan_irqGen (s : State) (ch : Channel) (c : ChannelRegs) : (s.setChan ch c).irqGen = s.irqGen := by
  cases ch <;> rfl
@[simp] theorem State.setChan_inHandler (s : State) (ch : Channel) (c : ChannelRegs) : (s.setChan ch c).inHandler = s.inHandler := by
  cases ch <;> rfl
@[simp] theorem State.setChan_isrPhase (s : State) (ch : Channel) (c : ChannelRegs) : (s.setChan ch c).isrPhase = s.isrPhase := by
  cases ch <;> rfl
@[simp] theorem State.setChan_hpc (s : State) (ch : Channel) (c : ChannelRegs) : (s.setChan ch c).hpc = s.hpc := by
  cases ch <;> rfl
@[simp] theorem State.setChan_hostIdle (s : State) (ch : Channel) (c : ChannelRegs) : (s.setChan ch c).hostIdle = s.hostIdle := by
  cases ch <;> rfl
@[simp] theorem State.setChan_sched (s : State) (ch : Channel) (c : ChannelRegs) : (s.setChan ch c).sched = s.sched := by
  cases ch <;> rfl
@[simp] theorem State.setChan_draws (s : State) (ch : Channel) (c : ChannelRegs) : (s.setChan ch c).draws = s.draws := by
  cases ch <;> rfl

@[simp] theorem State.setChan_ch0_ch0 (s : State) (c : ChannelRegs) : (s.setChan .ch0 c).ch0 = c := rfl
@[simp] theorem State.setChan_ch0_ch1 (s : State) (c : ChannelRegs) : (s.setChan .ch0 c).ch1 = s.ch1 := rfl
@[simp] theorem State.setChan_ch1_ch0 (s : State) (c : ChannelRegs) : (s.setChan .ch1 c).ch0 = s.ch0 := rfl
@[simp] theorem State.setChan_ch1_ch1 (s : State) (c : ChannelRegs) : (s.setChan .ch1 c).ch1 = c := rfl

/-- A read of the channel just written. -/
@[simp] theorem State.chan_setChan_same (s : State) (ch : Channel) (c : ChannelRegs) : (s.setChan ch c).chan ch = c := by
  cases ch <;> rfl

/-- A read of another channel. -/
theorem State.chan_setChan_of_ne (s : State) (ch ch' : Channel) (c : ChannelRegs) (h : ch' ≠ ch) :
    (s.setChan ch c).chan ch' = s.chan ch' := by
  cases ch <;> cases ch' <;> first | rfl | exact absurd rfl h

@[simp] theorem State.chan_ch0 (s : State) : s.chan .ch0 = s.ch0 := rfl
@[simp] theorem State.chan_ch1 (s : State) : s.chan .ch1 = s.ch1 := rfl

@[simp] theorem State.hostNext_chan (s : State) (ch : Channel) : s.hostNext.chan ch = s.chan ch := by
  cases ch <;> rfl
@[simp] theorem State.latchCalc_chan (s : State) (p : Nat) (ch : Channel) : (s.latchCalc p).chan ch = s.chan ch := by
  cases ch <;> rfl
@[simp] theorem State.tickEmit_chan (s : State) (ch : Channel) : s.tickEmit.chan ch = s.chan ch := by
  cases ch <;> rfl
@[simp] theorem State.timerStep_chan (s : State) (ch : Channel) :
    s.timerStep.chan ch = (s.chan ch).timerTick s.cfg.updateMode := by
  cases ch <;> rfl
@[simp] theorem State.isrEnter_chan (s : State) (ch : Channel) : s.isrEnter.chan ch = s.chan ch := by
  cases ch <;> rfl
@[simp] theorem State.isrReturn_chan (s : State) (ch : Channel) : s.isrReturn.chan ch = s.chan ch := by
  cases ch <;> rfl
@[simp] theorem State.isrAck_chan (s : State) (ch : Channel) : s.isrAck.chan ch = s.chan ch := by
  cases ch <;> rfl
@[simp] theorem State.toPhase_chan (s : State) (p : IsrPhase) (ch : Channel) : (s.toPhase p).chan ch = s.chan ch := by
  cases ch <;> rfl

/-! ## tickInit, tickAdvance -/

@[simp] theorem State.tickInit_init (s : State) : s.tickInit.init = true := by
  unfold State.tickInit; split <;> simp_all
@[simp] theorem State.tickInit_duty (s : State) :
    s.tickInit.duty = if s.init then s.duty else lowerDuty s.cfg := by
  unfold State.tickInit; split <;> rfl
@[simp] theorem State.tickInit_cfg (s : State) : s.tickInit.cfg = s.cfg := by
  unfold State.tickInit; split <;> rfl
@[simp] theorem State.tickInit_prog (s : State) : s.tickInit.prog = s.prog := by
  unfold State.tickInit; split <;> rfl
@[simp] theorem State.tickInit_dir (s : State) : s.tickInit.dir = s.dir := by
  unfold State.tickInit; split <;> rfl
@[simp] theorem State.tickInit_servoOut (s : State) : s.tickInit.servoOut = s.servoOut := by
  unfold State.tickInit; split <;> rfl
@[simp] theorem State.tickInit_ledOut (s : State) : s.tickInit.ledOut = s.ledOut := by
  unfold State.tickInit; split <;> rfl
@[simp] theorem State.tickInit_calcWrap (s : State) : s.tickInit.calcWrap = s.calcWrap := by
  unfold State.tickInit; split <;> rfl
@[simp] theorem State.tickInit_calcThr (s : State) : s.tickInit.calcThr = s.calcThr := by
  unfold State.tickInit; split <;> rfl
@[simp] theorem State.tickInit_ch0 (s : State) : s.tickInit.ch0 = s.ch0 := by
  unfold State.tickInit; split <;> rfl
@[simp] theorem State.tickInit_ch1 (s : State) : s.tickInit.ch1 = s.ch1 := by
  unfold State.tickInit; split <;> rfl
@[simp] theorem State.tickInit_intRaw (s : State) : s.tickInit.intRaw = s.intRaw := by
  unfold State.tickInit; split <;> rfl
@[simp] theorem State.tickInit_intMask (s : State) : s.tickInit.intMask = s.intMask := by
  unfold State.tickInit; split <;> rfl
@[simp] theorem State.tickInit_irqGen (s : State) : s.tickInit.irqGen = s.irqGen := by
  unfold State.tickInit; split <;> rfl
@[simp] theorem State.tickInit_inHandler (s : State) : s.tickInit.inHandler = s.inHandler := by
  unfold State.tickInit; split <;> rfl
@[simp] theorem State.tickInit_isrPhase (s : State) : s.tickInit.isrPhase = s.isrPhase := by
  unfold State.tickInit; split <;> rfl
@[simp] theorem State.tickInit_hpc (s : State) : s.tickInit.hpc = s.hpc := by
  unfold State.tickInit; split <;> rfl
@[simp] theorem State.tickInit_hostIdle (s : State) : s.tickInit.hostIdle = s.hostIdle := by
  unfold State.tickInit; split <;> rfl
@[simp] theorem State.tickInit_sched (s : State) : s.tickInit.sched = s.sched := by
  unfold State.tickInit; split <;> rfl
@[simp] theorem State.tickInit_draws (s : State) : s.tickInit.draws = s.draws := by
  unfold State.tickInit; split <;> rfl
@[simp] theorem State.tickInit_chan (s : State) (ch : Channel) : s.tickInit.chan ch = s.chan ch := by
  cases ch <;> simp
@[simp] theorem State.tickAdvance_cfg (s : State) : s.tickAdvance.cfg = s.cfg := by
  unfold State.tickAdvance; split <;> rfl
@[simp] theorem State.tickAdvance_prog (s : State) : s.tickAdvance.prog = s.prog := by
  unfold State.tickAdvance; split <;> rfl
@[simp] theorem State.tickAdvance_init (s : State) : s.tickAdvance.init = s.init := by
  unfold State.tickAdvance; split <;> rfl
@[simp] theorem State.tickAdvance_servoOut (s : State) : s.tickAdvance.servoOut = s.servoOut := by
  unfold State.tickAdvance; split <;> rfl
@[simp] theorem State.tickAdvance_ledOut (s : State) : s.tickAdvance.ledOut = s.ledOut := by
  unfold State.tickAdvance; split <;> rfl
@[simp] theorem State.tickAdvance_calcWrap (s : State) : s.tickAdvance.calcWrap = s.calcWrap := by
  unfold State.tickAdvance; split <;> rfl
@[simp] theorem State.tickAdvance_calcThr (s : State) : s.tickAdvance.calcThr = s.calcThr := by
  unfold State.tickAdvance; split <;> rfl
@[simp] theorem State.tickAdvance_ch0 (s : State) : s.tickAdvance.ch0 = s.ch0 := by
  unfold State.tickAdvance; split <;> rfl
@[simp] theorem State.tickAdvance_ch1 (s : State) : s.tickAdvance.ch1 = s.ch1 := by
  unfold State.tickAdvance; split <;> rfl
@[simp] theorem State.tickAdvance_intRaw (s : State) : s.tickAdvance.intRaw = s.intRaw := by
  unfold State.tickAdvance; split <;> rfl
@[simp] theorem State.tickAdvance_intMask (s : State) : s.tickAdvance.intMask = s.intMask := by
  unfold State.tickAdvance; split <;> rfl
@[simp] theorem State.tickAdvance_irqGen (s : State) : s.tickAdvance.irqGen = s.irqGen := by
  unfold State.tickAdvance; split <;> rfl
@[simp] theorem State.tickAdvance_inHandler (s : State) : s.tickAdvance.inHandler = s.inHandler := by
  unfold State.tickAdvance; split <;> rfl
@[simp] theorem State.tickAdvance_isrPhase (s : State) : s.tickAdvance.isrPhase = s.isrPhase := by
  unfold State.tickAdvance; split <;> rfl
@[simp] theorem State.tickAdvance_hpc (s : State) : s.tickAdvance.hpc = s.hpc := by
  unfold State.tickAdvance; split <;> rfl
@[simp] theorem State.tickAdvance_hostIdle (s : State) : s.tickAdvance.hostIdle = s.hostIdle := by
  unfold State.tickAdvance; split <;> rfl
@[simp] theorem State.tickAdvance_sched (s : State) : s.tickAdvance.sched = s.sched := by
  unfold State.tickAdvance; split <;> rfl
@[simp] theorem State.tickAdvance_draws (s : State) : s.tickAdvance.draws = s.draws := by
  unfold State.tickAdvance; split <;> rfl
@[simp] theorem State.tickAdvance_chan (s : State) (ch : Channel) : s.tickAdvance.chan ch = s.chan ch := by
  cases ch <;> simp

/-- The advance while Increasing (R119). -/
theorem State.tickAdvance_of_increasing (s : State) (h : s.dir = .increasing) :
    s.tickAdvance.duty = s.duty + stepDuty s.cfg ∧ s.tickAdvance.dir = dirAfterAdd s.cfg (s.duty + stepDuty s.cfg) := by
  unfold State.tickAdvance; simp [h]

/-- The advance while Decreasing (R119). -/
theorem State.tickAdvance_of_decreasing (s : State) (h : s.dir = .decreasing) :
    s.tickAdvance.duty = s.duty - stepDuty s.cfg ∧ s.tickAdvance.dir = dirAfterSub s.cfg (s.duty - stepDuty s.cfg) := by
  unfold State.tickAdvance; simp [h]

/-! ## applyPair, applyLatched, setduty, tick -/

@[simp] theorem State.applyPair_cfg (s : State) (ch : Channel) (w t : Nat) : (s.applyPair ch w t).cfg = s.cfg := by
  simp [State.applyPair]
@[simp] theorem State.applyPair_prog (s : State) (ch : Channel) (w t : Nat) : (s.applyPair ch w t).prog = s.prog := by
  simp [State.applyPair]
@[simp] theorem State.applyPair_duty (s : State) (ch : Channel) (w t : Nat) : (s.applyPair ch w t).duty = s.duty := by
  simp [State.applyPair]
@[simp] theorem State.applyPair_dir (s : State) (ch : Channel) (w t : Nat) : (s.applyPair ch w t).dir = s.dir := by
  simp [State.applyPair]
@[simp] theorem State.applyPair_init (s : State) (ch : Channel) (w t : Nat) : (s.applyPair ch w t).init = s.init := by
  simp [State.applyPair]
@[simp] theorem State.applyPair_servoOut (s : State) (ch : Channel) (w t : Nat) : (s.applyPair ch w t).servoOut = s.servoOut := by
  simp [State.applyPair]
@[simp] theorem State.applyPair_ledOut (s : State) (ch : Channel) (w t : Nat) : (s.applyPair ch w t).ledOut = s.ledOut := by
  simp [State.applyPair]
@[simp] theorem State.applyPair_calcWrap (s : State) (ch : Channel) (w t : Nat) : (s.applyPair ch w t).calcWrap = s.calcWrap := by
  simp [State.applyPair]
@[simp] theorem State.applyPair_calcThr (s : State) (ch : Channel) (w t : Nat) : (s.applyPair ch w t).calcThr = s.calcThr := by
  simp [State.applyPair]
@[simp] theorem State.applyPair_intRaw (s : State) (ch : Channel) (w t : Nat) : (s.applyPair ch w t).intRaw = s.intRaw := by
  simp [State.applyPair]
@[simp] theorem State.applyPair_intMask (s : State) (ch : Channel) (w t : Nat) : (s.applyPair ch w t).intMask = s.intMask := by
  simp [State.applyPair]
@[simp] theorem State.applyPair_irqGen (s : State) (ch : Channel) (w t : Nat) : (s.applyPair ch w t).irqGen = s.irqGen := by
  simp [State.applyPair]
@[simp] theorem State.applyPair_inHandler (s : State) (ch : Channel) (w t : Nat) : (s.applyPair ch w t).inHandler = s.inHandler := by
  simp [State.applyPair]
@[simp] theorem State.applyPair_isrPhase (s : State) (ch : Channel) (w t : Nat) : (s.applyPair ch w t).isrPhase = s.isrPhase := by
  simp [State.applyPair]
@[simp] theorem State.applyPair_hpc (s : State) (ch : Channel) (w t : Nat) : (s.applyPair ch w t).hpc = s.hpc := by
  simp [State.applyPair]
@[simp] theorem State.applyPair_hostIdle (s : State) (ch : Channel) (w t : Nat) : (s.applyPair ch w t).hostIdle = s.hostIdle := by
  simp [State.applyPair]
@[simp] theorem State.applyPair_sched (s : State) (ch : Channel) (w t : Nat) : (s.applyPair ch w t).sched = s.sched := by
  simp [State.applyPair]
@[simp] theorem State.applyPair_draws (s : State) (ch : Channel) (w t : Nat) : (s.applyPair ch w t).draws = s.draws := by
  simp [State.applyPair]
@[simp] theorem State.applyLatched_cfg (s : State) (ch : Channel) : (s.applyLatched ch).cfg = s.cfg := by
  simp [State.applyLatched]
@[simp] theorem State.applyLatched_prog (s : State) (ch : Channel) : (s.applyLatched ch).prog = s.prog := by
  simp [State.applyLatched]
@[simp] theorem State.applyLatched_duty (s : State) (ch : Channel) : (s.applyLatched ch).duty = s.duty := by
  simp [State.applyLatched]
@[simp] theorem State.applyLatched_dir (s : State) (ch : Channel) : (s.applyLatched ch).dir = s.dir := by
  simp [State.applyLatched]
@[simp] theorem State.applyLatched_init (s : State) (ch : Channel) : (s.applyLatched ch).init = s.init := by
  simp [State.applyLatched]
@[simp] theorem State.applyLatched_servoOut (s : State) (ch : Channel) : (s.applyLatched ch).servoOut = s.servoOut := by
  simp [State.applyLatched]
@[simp] theorem State.applyLatched_ledOut (s : State) (ch : Channel) : (s.applyLatched ch).ledOut = s.ledOut := by
  simp [State.applyLatched]
@[simp] theorem State.applyLatched_calcWrap (s : State) (ch : Channel) : (s.applyLatched ch).calcWrap = s.calcWrap := by
  simp [State.applyLatched]
@[simp] theorem State.applyLatched_calcThr (s : State) (ch : Channel) : (s.applyLatched ch).calcThr = s.calcThr := by
  simp [State.applyLatched]
@[simp] theorem State.applyLatched_intRaw (s : State) (ch : Channel) : (s.applyLatched ch).intRaw = s.intRaw := by
  simp [State.applyLatched]
@[simp] theorem State.applyLatched_intMask (s : State) (ch : Channel) : (s.applyLatched ch).intMask = s.intMask := by
  simp [State.applyLatched]
@[simp] theorem State.applyLatched_irqGen (s : State) (ch : Channel) : (s.applyLatched ch).irqGen = s.irqGen := by
  simp [State.applyLatched]
@[simp] theorem State.applyLatched_inHandler (s : State) (ch : Channel) : (s.applyLatched ch).inHandler = s.inHandler := by
  simp [State.applyLatched]
@[simp] theorem State.applyLatched_isrPhase (s : State) (ch : Channel) : (s.applyLatched ch).isrPhase = s.isrPhase := by
  simp [State.applyLatched]
@[simp] theorem State.applyLatched_hpc (s : State) (ch : Channel) : (s.applyLatched ch).hpc = s.hpc := by
  simp [State.applyLatched]
@[simp] theorem State.applyLatched_hostIdle (s : State) (ch : Channel) : (s.applyLatched ch).hostIdle = s.hostIdle := by
  simp [State.applyLatched]
@[simp] theorem State.applyLatched_sched (s : State) (ch : Channel) : (s.applyLatched ch).sched = s.sched := by
  simp [State.applyLatched]
@[simp] theorem State.applyLatched_draws (s : State) (ch : Channel) : (s.applyLatched ch).draws = s.draws := by
  simp [State.applyLatched]
@[simp] theorem State.setduty_cfg (s : State) (ch : Channel) (v : Nat) : (s.setduty ch v).cfg = s.cfg := by
  simp [State.setduty]
@[simp] theorem State.setduty_prog (s : State) (ch : Channel) (v : Nat) : (s.setduty ch v).prog = s.prog := by
  simp [State.setduty]
@[simp] theorem State.setduty_duty (s : State) (ch : Channel) (v : Nat) : (s.setduty ch v).duty = s.duty := by
  simp [State.setduty]
@[simp] theorem State.setduty_dir (s : State) (ch : Channel) (v : Nat) : (s.setduty ch v).dir = s.dir := by
  simp [State.setduty]
@[simp] theorem State.setduty_init (s : State) (ch : Channel) (v : Nat) : (s.setduty ch v).init = s.init := by
  simp [State.setduty]
@[simp] theorem State.setduty_servoOut (s : State) (ch : Channel) (v : Nat) : (s.setduty ch v).servoOut = s.servoOut := by
  simp [State.setduty]
@[simp] theorem State.setduty_ledOut (s : State) (ch : Channel) (v : Nat) : (s.setduty ch v).ledOut = s.ledOut := by
  simp [State.setduty]
@[simp] theorem State.setduty_calcWrap (s : State) (ch : Channel) (v : Nat) : (s.setduty ch v).calcWrap = s.cfg.wrapValue := by
  simp [State.setduty]
@[simp] theorem State.setduty_calcThr (s : State) (ch : Channel) (v : Nat) : (s.setduty ch v).calcThr = s.cfg.calcThr (s.cfg.narrowP v) := by
  simp [State.setduty]
@[simp] theorem State.setduty_intRaw (s : State) (ch : Channel) (v : Nat) : (s.setduty ch v).intRaw = s.intRaw := by
  simp [State.setduty]
@[simp] theorem State.setduty_intMask (s : State) (ch : Channel) (v : Nat) : (s.setduty ch v).intMask = s.intMask := by
  simp [State.setduty]
@[simp] theorem State.setduty_irqGen (s : State) (ch : Channel) (v : Nat) : (s.setduty ch v).irqGen = s.irqGen := by
  simp [State.setduty]
@[simp] theorem State.setduty_inHandler (s : State) (ch : Channel) (v : Nat) : (s.setduty ch v).inHandler = s.inHandler := by
  simp [State.setduty]
@[simp] theorem State.setduty_isrPhase (s : State) (ch : Channel) (v : Nat) : (s.setduty ch v).isrPhase = s.isrPhase := by
  simp [State.setduty]
@[simp] theorem State.setduty_hpc (s : State) (ch : Channel) (v : Nat) : (s.setduty ch v).hpc = s.hpc := by
  simp [State.setduty]
@[simp] theorem State.setduty_hostIdle (s : State) (ch : Channel) (v : Nat) : (s.setduty ch v).hostIdle = s.hostIdle := by
  simp [State.setduty]
@[simp] theorem State.setduty_sched (s : State) (ch : Channel) (v : Nat) : (s.setduty ch v).sched = s.sched := by
  simp [State.setduty]
@[simp] theorem State.setduty_draws (s : State) (ch : Channel) (v : Nat) : (s.setduty ch v).draws = s.draws := by
  simp [State.setduty]
@[simp] theorem State.applyPair_chan_same (s : State) (ch : Channel) (w t : Nat) :
    (s.applyPair ch w t).chan ch = (s.chan ch).apply s.cfg w t := by
  simp [State.applyPair]
theorem State.applyPair_chan_of_ne (s : State) (ch ch' : Channel) (w t : Nat) (h : ch' ≠ ch) :
    (s.applyPair ch w t).chan ch' = s.chan ch' := by
  simp [State.applyPair, State.chan_setChan_of_ne _ _ _ _ h]
@[simp] theorem State.applyLatched_chan_same (s : State) (ch : Channel) :
    (s.applyLatched ch).chan ch = (s.chan ch).apply s.cfg s.calcWrap s.calcThr := by
  simp [State.applyLatched]
theorem State.applyLatched_chan_of_ne (s : State) (ch ch' : Channel) (h : ch' ≠ ch) :
    (s.applyLatched ch).chan ch' = s.chan ch' := by
  simp [State.applyLatched, State.applyPair_chan_of_ne _ _ _ _ _ h]
@[simp] theorem State.setduty_chan_same (s : State) (ch : Channel) (v : Nat) :
    (s.setduty ch v).chan ch = (s.chan ch).apply s.cfg s.cfg.wrapValue (s.cfg.calcThr (s.cfg.narrowP v)) := by
  simp [State.setduty]
theorem State.setduty_chan_of_ne (s : State) (ch ch' : Channel) (v : Nat) (h : ch' ≠ ch) :
    (s.setduty ch v).chan ch' = s.chan ch' := by
  simp [State.setduty, State.applyLatched_chan_of_ne _ _ _ h]

@[simp] theorem State.applyPair_ch0_ch0 (s : State) (w t : Nat) :
    (s.applyPair .ch0 w t).ch0 = s.ch0.apply s.cfg w t :=
  s.applyPair_chan_same .ch0 w t
@[simp] theorem State.applyPair_ch0_ch1 (s : State) (w t : Nat) : (s.applyPair .ch0 w t).ch1 = s.ch1 :=
  s.applyPair_chan_of_ne .ch0 .ch1 w t (by decide)
@[simp] theorem State.applyPair_ch1_ch1 (s : State) (w t : Nat) :
    (s.applyPair .ch1 w t).ch1 = s.ch1.apply s.cfg w t :=
  s.applyPair_chan_same .ch1 w t
@[simp] theorem State.applyPair_ch1_ch0 (s : State) (w t : Nat) : (s.applyPair .ch1 w t).ch0 = s.ch0 :=
  s.applyPair_chan_of_ne .ch1 .ch0 w t (by decide)
@[simp] theorem State.applyLatched_ch0_ch0 (s : State) :
    (s.applyLatched .ch0).ch0 = s.ch0.apply s.cfg s.calcWrap s.calcThr :=
  s.applyLatched_chan_same .ch0
@[simp] theorem State.applyLatched_ch0_ch1 (s : State) : (s.applyLatched .ch0).ch1 = s.ch1 :=
  s.applyLatched_chan_of_ne .ch0 .ch1 (by decide)
@[simp] theorem State.applyLatched_ch1_ch1 (s : State) :
    (s.applyLatched .ch1).ch1 = s.ch1.apply s.cfg s.calcWrap s.calcThr :=
  s.applyLatched_chan_same .ch1
@[simp] theorem State.applyLatched_ch1_ch0 (s : State) : (s.applyLatched .ch1).ch0 = s.ch0 :=
  s.applyLatched_chan_of_ne .ch1 .ch0 (by decide)
@[simp] theorem State.setduty_ch0_ch0 (s : State) (v : Nat) :
    (s.setduty .ch0 v).ch0 = s.ch0.apply s.cfg s.cfg.wrapValue (s.cfg.calcThr (s.cfg.narrowP v)) :=
  s.setduty_chan_same .ch0 v
@[simp] theorem State.setduty_ch0_ch1 (s : State) (v : Nat) : (s.setduty .ch0 v).ch1 = s.ch1 :=
  s.setduty_chan_of_ne .ch0 .ch1 v (by decide)
@[simp] theorem State.setduty_ch1_ch1 (s : State) (v : Nat) :
    (s.setduty .ch1 v).ch1 = s.ch1.apply s.cfg s.cfg.wrapValue (s.cfg.calcThr (s.cfg.narrowP v)) :=
  s.setduty_chan_same .ch1 v
@[simp] theorem State.setduty_ch1_ch0 (s : State) (v : Nat) : (s.setduty .ch1 v).ch0 = s.ch0 :=
  s.setduty_chan_of_ne .ch1 .ch0 v (by decide)
@[simp] theorem State.tick_cfg (s : State) : s.tick.cfg = s.cfg := by
  simp [State.tick]
@[simp] theorem State.tick_prog (s : State) : s.tick.prog = s.prog := by
  simp [State.tick]
@[simp] theorem State.tick_init (s : State) : s.tick.init = true := by
  simp [State.tick]
@[simp] theorem State.tick_calcWrap (s : State) : s.tick.calcWrap = s.calcWrap := by
  simp [State.tick]
@[simp] theorem State.tick_calcThr (s : State) : s.tick.calcThr = s.calcThr := by
  simp [State.tick]
@[simp] theorem State.tick_ch0 (s : State) : s.tick.ch0 = s.ch0 := by
  simp [State.tick]
@[simp] theorem State.tick_ch1 (s : State) : s.tick.ch1 = s.ch1 := by
  simp [State.tick]
@[simp] theorem State.tick_intRaw (s : State) : s.tick.intRaw = s.intRaw := by
  simp [State.tick]
@[simp] theorem State.tick_intMask (s : State) : s.tick.intMask = s.intMask := by
  simp [State.tick]
@[simp] theorem State.tick_irqGen (s : State) : s.tick.irqGen = s.irqGen := by
  simp [State.tick]
@[simp] theorem State.tick_inHandler (s : State) : s.tick.inHandler = s.inHandler := by
  simp [State.tick]
@[simp] theorem State.tick_isrPhase (s : State) : s.tick.isrPhase = s.isrPhase := by
  simp [State.tick]
@[simp] theorem State.tick_hpc (s : State) : s.tick.hpc = s.hpc := by
  simp [State.tick]
@[simp] theorem State.tick_hostIdle (s : State) : s.tick.hostIdle = s.hostIdle := by
  simp [State.tick]
@[simp] theorem State.tick_sched (s : State) : s.tick.sched = s.sched := by
  simp [State.tick]
@[simp] theorem State.tick_draws (s : State) : s.tick.draws = s.draws := by
  simp [State.tick]
@[simp] theorem State.tick_chan (s : State) (ch : Channel) : s.tick.chan ch = s.chan ch := by
  cases ch <;> simp
theorem State.tick_servoOut (s : State) :
    s.tick.servoOut = if s.init then s.duty else lowerDuty s.cfg := by
  simp [State.tick]
theorem State.tick_ledOut (s : State) :
    s.tick.ledOut = s.tick.servoOut.zeroExtend 32 * s.tick.servoOut.zeroExtend 32 := by
  simp [State.tick]

end Sys2Proof.Machine
end

