-- ==== Sys2Proof/Laws/Ops.lean ====
section
/-! SUPPORT. What each shared operation can do, said once: the calculator, the channel write, the timer tick, the sweep
transition, the interrupt's bits, and the registers each leaves alone. -/

namespace Sys2Proof

/-! ## The configuration (00_scope.md R17, 40_calculator.md R90 to R95) -/

/-- What a well-formed configuration gives. -/
theorem Config.wf_iff (c : Config) : c.wf = true ↔
    1 ≤ c.clockHz ∧ (1 ≤ c.carrierHz ∧ c.carrierHz ≤ 1000000) ∧ 1 ≤ c.prescaler ∧
    (1 ≤ c.wrapValue ∧ c.wrapValue ≤ 2 ^ c.regWidth - 1) ∧ 1 ≤ c.stepUs ∧
    (c.stepUs ≤ c.lower ∧ c.lower < c.upper) ∧ c.upper + c.stepUs ≤ 2 ^ 16 - 1 := by
  simp only [Config.wf, Bool.and_eq_true, decide_eq_true_eq, and_assoc]

/-- The period of a well-formed configuration is at least 1 µs. -/
theorem Config.periodUs_pos (c : Config) (h : c.wf = true) : 0 < c.periodUs := by
  have := c.wf_iff.1 h
  exact Nat.div_pos this.2.1.2 this.2.1.1

/-- `WRAP` fits its register. -/
theorem Config.wrapValue_lt (c : Config) (h : c.wf = true) : c.wrapValue < 2 ^ c.regWidth := by
  have := c.wf_iff.1 h
  have := Nat.two_pow_pos c.regWidth
  omega

/-- The product is never above the exact one. -/
theorem Config.product_le (c : Config) (p : Nat) : c.product p ≤ c.wrapValue * p := by
  unfold Config.product
  split
  · exact le_refl _
  · exact Nat.mod_le _ _

/-- A narrowed value fits its register. -/
theorem Config.narrowReg_lt (c : Config) (v : Nat) : c.narrowReg v < 2 ^ c.regWidth :=
  Nat.mod_lt _ (Nat.two_pow_pos _)

/-- A value that fits its register is not changed by narrowing (R101's remark on the wrap value). -/
theorem Config.narrowReg_of_lt (c : Config) {v : Nat} (h : v < 2 ^ c.regWidth) : c.narrowReg v = v :=
  Nat.mod_eq_of_lt h

/-- A 16-bit path hands on a value below 2^16. -/
theorem Config.narrowP_lt (c : Config) (v : Nat) (h : c.pathWidth = .bits16) : c.narrowP v < 2 ^ 16 := by
  simp only [Config.narrowP, h]
  exact Nat.mod_lt _ (by decide)

/-- A value below 2^16 is not changed at the entry of the path (R104's first corner case). -/
@[simp] theorem Config.narrowP_zext16 (c : Config) (imm : BitVec 16) : c.narrowP imm.toNat = imm.toNat := by
  unfold Config.narrowP
  split
  · exact Nat.mod_eq_of_lt imm.isLt
  · rfl

namespace Machine

/-! ## Condition bits -/

/-- The bit of a channel in a union. -/
@[simp] theorem hasChan_or (a b : BitVec 2) (ch : Channel) : hasChan (a ||| b) ch = (hasChan a ch || hasChan b ch) := by
  cases ch <;> simp [hasChan]

/-- The bit of a channel in an intersection. -/
@[simp] theorem hasChan_and (a b : BitVec 2) (ch : Channel) : hasChan (a &&& b) ch = (hasChan a ch && hasChan b ch) := by
  cases ch <;> simp [hasChan]

@[simp] theorem hasChan_zero (ch : Channel) : hasChan 0#2 ch = false := by
  cases ch <;> rfl

/-- A channel's own bit. -/
@[simp] theorem hasChan_chanBit (ch ch' : Channel) : hasChan (chanBit ch) ch' = decide (ch = ch') := by
  cases ch <;> cases ch' <;> rfl

/-- The bits a wrap event sets. -/
@[simp] theorem hasChan_wrapBit (ch ch' : Channel) (c : ChannelRegs) :
    hasChan (wrapBit ch c) ch' = (c.wraps && decide (ch = ch')) := by
  unfold wrapBit
  cases c.wraps <;> simp

/-- Write-1-to-clear, bit by bit (43_control.md R135). -/
@[simp] theorem hasChan_clearBits (raw b : BitVec 2) (ch : Channel) :
    hasChan (clearBits raw b) ch = (hasChan raw ch && !hasChan b ch) := by
  cases ch <;> simp [hasChan, clearBits]

/-- A channel set is not empty exactly when it holds a channel. -/
theorem ne_zero_iff_hasChan : ∀ b : BitVec 2, b ≠ 0#2 ↔ ∃ ch, hasChan b ch = true := by
  intro b
  constructor
  · intro h
    by_cases h0 : hasChan b .ch0 = true
    · exact ⟨.ch0, h0⟩
    · by_cases h1 : hasChan b .ch1 = true
      · exact ⟨.ch1, h1⟩
      · exfalso
        revert h h0 h1
        revert b
        decide
  · rintro ⟨ch, h⟩ rfl
    simp at h

/-- A channel's bit after a TIMER step (60_exceptions.md R151, R152). -/
@[simp] theorem hasChan_timerStep (s : State) (ch : Channel) :
    hasChan s.timerStep.intRaw ch = (hasChan s.intRaw ch || (s.chan ch).wraps) := by
  cases ch <;> simp [State.timerStep_intRaw]

/-- The line (R155), channel by channel. -/
theorem irq_iff (s : State) : irq s = true ↔
    s.irqGen = true ∧ ∃ ch, hasChan s.intRaw ch = true ∧ hasChan s.intMask ch = true := by
  simp only [irq, Bool.and_eq_true, bne_iff_ne, ne_zero_iff_hasChan, hasChan_and]

/-- A TIMER step never takes the line down. -/
theorem irq_timerStep (s : State) (h : irq s = true) : irq s.timerStep = true := by
  obtain ⟨hg, ch, hr, hm⟩ := (irq_iff s).1 h
  exact (irq_iff _).2 ⟨hg, ch, by simp [hr], hm⟩

/-! ## The channel write (41_channel.md R101 to R103) -/

@[simp] theorem ChannelRegs.apply_wrap (cfg : Config) (w t : Nat) (c : ChannelRegs) :
    (c.apply cfg w t).wrap = cfg.narrowReg w := by
  unfold ChannelRegs.apply; split <;> rfl

@[simp] theorem ChannelRegs.apply_cc (cfg : Config) (w t : Nat) (c : ChannelRegs) :
    (c.apply cfg w t).cc = cfg.narrowReg t := by
  unfold ChannelRegs.apply; split <;> rfl

@[simp] theorem ChannelRegs.apply_en (cfg : Config) (w t : Nat) (c : ChannelRegs) : (c.apply cfg w t).en = true := by
  unfold ChannelRegs.apply; split <;> simp_all [ChannelRegs.load, ChannelRegs.program]

@[simp] theorem ChannelRegs.apply_div (cfg : Config) (w t : Nat) (c : ChannelRegs) : (c.apply cfg w t).div = c.div := by
  unfold ChannelRegs.apply; split <;> rfl

/-- Enabling a disabled channel (R102). -/
theorem ChannelRegs.apply_of_disabled (cfg : Config) (w t : Nat) (c : ChannelRegs) (h : c.en = false) :
    c.apply cfg w t =
      { wrap := cfg.narrowReg w, cc := cfg.narrowReg t, en := true, div := c.div,
        wrapAct := cfg.narrowReg w, ccAct := cfg.narrowReg t, ctr := 0 } := by
  unfold ChannelRegs.apply; simp [h, ChannelRegs.load, ChannelRegs.program]

/-- Writing a running channel under `IMMEDIATE` (R103). -/
theorem ChannelRegs.apply_of_immediate (cfg : Config) (w t : Nat) (c : ChannelRegs) (h : c.en = true)
    (hm : cfg.updateMode = .immediate) :
    c.apply cfg w t =
      { wrap := cfg.narrowReg w, cc := cfg.narrowReg t, en := true, div := c.div,
        wrapAct := cfg.narrowReg w, ccAct := cfg.narrowReg t, ctr := c.ctr } := by
  unfold ChannelRegs.apply; simp [h, hm, ChannelRegs.load, ChannelRegs.program]

/-- Writing a running channel under `AT_WRAP` (R103). -/
theorem ChannelRegs.apply_of_atWrap (cfg : Config) (w t : Nat) (c : ChannelRegs) (h : c.en = true)
    (hm : cfg.updateMode = .atWrap) :
    c.apply cfg w t = { c with wrap := cfg.narrowReg w, cc := cfg.narrowReg t } := by
  unfold ChannelRegs.apply; simp [h, hm, ChannelRegs.program]

/-! ## The timer tick on one channel (60_exceptions.md R150, R151) -/

/-- A channel wraps exactly when it is enabled and its next count reaches the active wrap. -/
theorem ChannelRegs.wraps_iff (c : ChannelRegs) : c.wraps = true ↔ c.en = true ∧ c.wrapAct ≤ c.ctr + 1 := by
  simp [ChannelRegs.wraps]

@[simp] theorem ChannelRegs.timerTick_wrap (m : UpdateMode) (c : ChannelRegs) : (c.timerTick m).wrap = c.wrap := by
  unfold ChannelRegs.timerTick ChannelRegs.wrapEvent ChannelRegs.load; split <;> [split; split] <;> rfl

@[simp] theorem ChannelRegs.timerTick_cc (m : UpdateMode) (c : ChannelRegs) : (c.timerTick m).cc = c.cc := by
  unfold ChannelRegs.timerTick ChannelRegs.wrapEvent ChannelRegs.load; split <;> [split; split] <;> rfl

@[simp] theorem ChannelRegs.timerTick_en (m : UpdateMode) (c : ChannelRegs) : (c.timerTick m).en = c.en := by
  unfold ChannelRegs.timerTick ChannelRegs.wrapEvent ChannelRegs.load; split <;> [split; split] <;> rfl

@[simp] theorem ChannelRegs.timerTick_div (m : UpdateMode) (c : ChannelRegs) : (c.timerTick m).div = c.div := by
  unfold ChannelRegs.timerTick ChannelRegs.wrapEvent ChannelRegs.load; split <;> [split; split] <;> rfl

/-- A disabled channel does not count (R153). -/
theorem ChannelRegs.timerTick_of_disabled (m : UpdateMode) (c : ChannelRegs) (h : c.en = false) : c.timerTick m = c := by
  simp [ChannelRegs.timerTick, ChannelRegs.wraps, h]

/-- One more count. -/
theorem ChannelRegs.timerTick_of_lt (m : UpdateMode) (c : ChannelRegs) (h : c.en = true) (hc : c.ctr + 1 < c.wrapAct) :
    c.timerTick m = { c with ctr := c.ctr + 1 } := by
  simp [ChannelRegs.timerTick, ChannelRegs.wraps, h, Nat.not_le.2 hc]

/-- A wrap event. -/
theorem ChannelRegs.timerTick_of_wraps (m : UpdateMode) (c : ChannelRegs) (h : c.wraps = true) :
    c.timerTick m = c.wrapEvent m := by
  simp [ChannelRegs.timerTick, h]

/-- The three things a timer tick can do to a channel. -/
theorem ChannelRegs.timerTick_cases (m : UpdateMode) (c : ChannelRegs) :
    (c.en = false ∧ c.timerTick m = c) ∨
    (c.en = true ∧ c.ctr + 1 < c.wrapAct ∧ c.timerTick m = { c with ctr := c.ctr + 1 }) ∨
    (c.en = true ∧ c.wrapAct ≤ c.ctr + 1 ∧
      ((m = .atWrap ∧ c.timerTick m = { c with wrapAct := c.wrap, ccAct := c.cc, ctr := 0 }) ∨
        (m = .immediate ∧ c.timerTick m = { c with ctr := 0 }))) := by
  rcases Bool.eq_false_or_eq_true c.en with h | h
  · rcases Nat.lt_or_ge (c.ctr + 1) c.wrapAct with hc | hc
    · exact .inr (.inl ⟨h, hc, c.timerTick_of_lt m h hc⟩)
    · refine .inr (.inr ⟨h, hc, ?_⟩)
      rw [c.timerTick_of_wraps m (c.wraps_iff.2 ⟨h, hc⟩)]
      cases m
      · exact .inl ⟨rfl, rfl⟩
      · exact .inr ⟨rfl, rfl⟩
  · exact .inl ⟨h, c.timerTick_of_disabled m h⟩

/-! ## The sweep (42_sweep.md R115 to R119) -/

/-- `LOWER` as a `DUTY` value is exact under a well-formed configuration. -/
theorem lowerDuty_toNat (c : Config) (h : c.wf = true) : (lowerDuty c).toNat = c.lower := by
  have := c.wf_iff.1 h
  simp only [lowerDuty, BitVec.toNat_ofNat]
  omega

/-- `STEP` as an operand is exact under a well-formed configuration. -/
theorem stepDuty_toNat (c : Config) (h : c.wf = true) : (stepDuty c).toNat = c.stepUs := by
  have := c.wf_iff.1 h
  simp only [stepDuty, BitVec.toNat_ofNat]
  omega

/-- The square is exact (42_sweep.md R118, R128). -/
theorem square_toNat (d : BitVec 16) : (d.zeroExtend 32 * d.zeroExtend 32).toNat = d.toNat * d.toNat := by
  have h := d.isLt
  have hsq : d.toNat * d.toNat < 2 ^ 32 := by nlinarith
  simp only [BitVec.toNat_mul, BitVec.truncate_eq_setWidth, BitVec.toNat_setWidth]
  rw [Nat.mod_eq_of_lt (show d.toNat < 2 ^ 32 by omega), Nat.mod_eq_of_lt hsq]

/-- The tick while Increasing: the value advanced and the flip. -/
theorem State.tick_of_increasing (s : State) (h : s.dir = .increasing) :
    s.tick.duty = s.tick.servoOut + stepDuty s.cfg ∧
    s.tick.dir = dirAfterAdd s.cfg (s.tick.servoOut + stepDuty s.cfg) := by
  have := State.tickAdvance_of_increasing s.tickInit.tickEmit (by simpa using h)
  simpa [State.tick] using this

/-- The tick while Decreasing: the value advanced and the flip. -/
theorem State.tick_of_decreasing (s : State) (h : s.dir = .decreasing) :
    s.tick.duty = s.tick.servoOut - stepDuty s.cfg ∧
    s.tick.dir = dirAfterSub s.cfg (s.tick.servoOut - stepDuty s.cfg) := by
  have := State.tickAdvance_of_decreasing s.tickInit.tickEmit (by simpa using h)
  simpa [State.tick] using this

/-! ## Two states that agree on every register are told apart by nothing else -/

theorem Direction.bit_inj {a b : Direction} (h : Direction.bit a = Direction.bit b) : a = b := by
  cases a <;> cases b <;> simp_all [Direction.bit]

theorem IsrPhase.number_inj {a b : IsrPhase} (h : IsrPhase.number a = IsrPhase.number b) : a = b := by
  cases a <;> cases b <;> simp_all [IsrPhase.number]

theorem bool_toNat_inj {a b : Bool} (h : a.toNat = b.toNat) : a = b := by
  cases a <;> cases b <;> simp_all

/-- No two registers have the same number (10_state.md R22). -/
theorem Reg.number_inj {a b : Reg} (h : a.number = b.number) : a = b := by
  rcases a with _ | _ | _ | _ | _ | _ | _ | x | x | x | x | x | x | x | _ | _ | _ | _ | _ | _ | _ <;>
    first
      | (cases x <;> rcases b with _ | _ | _ | _ | _ | _ | _ | y | y | y | y | y | y | y | _ | _ | _ | _ | _ | _ | _ <;>
          first | (cases y <;> first | rfl | exact absurd h (by decide)) | exact absurd h (by decide))
      | (rcases b with _ | _ | _ | _ | _ | _ | _ | y | y | y | y | y | y | y | _ | _ | _ | _ | _ | _ | _ <;>
          first | rfl | (cases y <;> exact absurd h (by decide)) | exact absurd h (by decide))

theorem SameRun.refl (s : State) : SameRun s s := ⟨rfl, rfl, rfl, rfl⟩

theorem SameRun.trans {s t u : State} (h : SameRun s t) (h' : SameRun t u) : SameRun s u :=
  ⟨h'.1.trans h.1, h'.2.1.trans h.2.1, h'.2.2.1.trans h.2.2.1, h'.2.2.2.trans h.2.2.2⟩

theorem SameBut.refl (rs : List Reg) (s : State) : SameBut rs s s := ⟨fun _ _ => rfl, .refl s⟩

theorem SameBut.trans {rs : List Reg} {s t u : State} (h : SameBut rs s t) (h' : SameBut rs t u) : SameBut rs s u :=
  ⟨fun r hr => (h'.1 r hr).trans (h.1 r hr), h.2.trans h'.2⟩

/-- A frame may name more registers than are written. -/
theorem SameBut.mono {rs rs' : List Reg} {s t : State} (h : SameBut rs s t) (hs : ∀ r ∈ rs, r ∈ rs') : SameBut rs' s t :=
  ⟨fun r hr => h.1 r fun hm => hr (hs r hm), h.2⟩

/-! ## Frames of the shared operations -/

/-- One list of writers, then another. -/
theorem SameBut.comp {rs rs' : List Reg} {s t u : State} (h : SameBut rs s t) (h' : SameBut rs' t u) :
    SameBut (rs ++ rs') s u :=
  (h.mono fun _ hr => List.mem_append_left _ hr).trans (h'.mono fun _ hr => List.mem_append_right _ hr)

/-- Two states that agree on a register's value agree on what it holds: the registers of R22 and the run are the whole
state. -/
theorem SameBut.eq {s t : State} (h : SameBut [] s t) : t = s := by
  obtain ⟨hall, hc, hp, hs, hd⟩ := h
  have hr : ∀ r, t.read r = s.read r := fun r => hall r List.not_mem_nil
  clear hall
  have hch : ∀ ch, t.chan ch = s.chan ch := fun ch => by
    have e := bool_toNat_inj (hr (.en ch))
    have d := BitVec.eq_of_toNat_eq (hr (.div ch))
    have := hr (.wrap ch)
    have := hr (.cc ch)
    have := hr (.wrapAct ch)
    have := hr (.ccAct ch)
    have := hr (.ctr ch)
    cases h1 : t.chan ch
    cases h2 : s.chan ch
    simp_all [State.read]
  have h0 : t.ch0 = s.ch0 := hch .ch0
  have h1 : t.ch1 = s.ch1 := hch .ch1
  clear hch
  have a1 := BitVec.eq_of_toNat_eq (hr .duty)
  have a2 := Direction.bit_inj (hr .dir)
  have a3 := bool_toNat_inj (hr .init)
  have a4 := BitVec.eq_of_toNat_eq (hr .servoOut)
  have a5 := BitVec.eq_of_toNat_eq (hr .ledOut)
  have a6 : t.calcWrap = s.calcWrap := hr .calcWrap
  have a7 : t.calcThr = s.calcThr := hr .calcThr
  have a8 := BitVec.eq_of_toNat_eq (hr .intRaw)
  have a9 := BitVec.eq_of_toNat_eq (hr .intMask)
  have a10 := bool_toNat_inj (hr .irqGen)
  have a11 := bool_toNat_inj (hr .inHandler)
  have a12 := IsrPhase.number_inj (hr .isrPhase)
  have a13 : t.hpc = s.hpc := hr .hpc
  have a14 := bool_toNat_inj (hr .hostIdle)
  clear hr
  cases t
  cases s
  simp_all

theorem State.hostNext_sameBut (s : State) : SameBut [.hpc] s s.hostNext :=
  ⟨fun r hr => by cases r <;> first | rfl | simp at hr, rfl, rfl, rfl, rfl⟩

theorem State.latchCalc_sameBut (s : State) (p : Nat) : SameBut [.calcWrap, .calcThr] s (s.latchCalc p) :=
  ⟨fun r hr => by cases r <;> first | rfl | simp at hr, rfl, rfl, rfl, rfl⟩

/-- The channel write touches its channel only, and not the prescaler (41_channel.md R101, R110). -/
theorem State.applyPair_sameBut (s : State) (ch : Channel) (w t : Nat) :
    SameBut (applyWrites ch) s (s.applyPair ch w t) := by
  refine ⟨fun r hr => ?_, by simp [SameRun]⟩
  cases r <;> first
    | (simp [State.read]; done)
    | (rename_i ch'
       by_cases h : ch' = ch
       · subst h; first | (simp [applyWrites] at hr; done) | simp [State.read]
       · simp [State.read, State.applyPair_chan_of_ne _ _ _ _ _ h])

theorem State.applyLatched_sameBut (s : State) (ch : Channel) : SameBut (applyWrites ch) s (s.applyLatched ch) :=
  s.applyPair_sameBut ch _ _

/-- The duty-setting path (41_channel.md R104). -/
theorem State.setduty_sameBut (s : State) (ch : Channel) (v : Nat) :
    SameBut (.calcWrap :: .calcThr :: applyWrites ch) s (s.setduty ch v) :=
  (s.latchCalc_sameBut _).comp ((s.latchCalc _).applyLatched_sameBut ch)

/-- The sweep transition (42_sweep.md R115, R129). -/
theorem State.tick_sameBut (s : State) : SameBut sweepWrites s s.tick :=
  ⟨fun r hr => by cases r <;> first | (simp [sweepWrites] at hr; done) | simp [State.read], by simp [SameRun]⟩

/-- A TIMER step (20_memory.md R59). -/
theorem State.timerStep_sameBut (s : State) : SameBut timerWrites s s.timerStep :=
  ⟨fun r hr => by
    cases r <;> first
      | rfl
      | (simp [timerWrites] at hr; done)
      | (rename_i ch; cases ch <;> first | (simp [timerWrites] at hr; done) | simp [State.read]), by simp [SameRun]⟩

theorem State.isrEnter_sameBut (s : State) : SameBut entryWrites s s.isrEnter :=
  ⟨fun r hr => by cases r <;> first | rfl | simp [entryWrites] at hr, rfl, rfl, rfl, rfl⟩

theorem State.isrReturn_sameBut (s : State) : SameBut [.inHandler, .isrPhase] s s.isrReturn :=
  ⟨fun r hr => by cases r <;> first | rfl | simp at hr, rfl, rfl, rfl, rfl⟩

theorem State.isrAck_sameBut (s : State) : SameBut [.intRaw] s s.isrAck :=
  ⟨fun r hr => by cases r <;> first | rfl | simp at hr, rfl, rfl, rfl, rfl⟩

theorem State.toPhase_sameBut (s : State) (p : IsrPhase) : SameBut [.isrPhase] s (s.toPhase p) :=
  ⟨fun r hr => by cases r <;> first | rfl | simp at hr, rfl, rfl, rfl, rfl⟩

/-! ## The phases (60_exceptions.md R160), one equation each -/

theorem State.isrStep_of_ack (s : State) (h : s.isrPhase = .ack) : s.isrStep = s.isrAck.toPhase .tick := by
  simp [State.isrStep, h]

theorem State.isrStep_of_tick (s : State) (h : s.isrPhase = .tick) : s.isrStep = s.tick.toPhase .servo := by
  simp [State.isrStep, h]

theorem State.isrStep_of_servo (s : State) (h : s.isrPhase = .servo) :
    s.isrStep = (s.setduty .ch0 s.servoOut.toNat).toPhase .led := by
  simp [State.isrStep, h]

theorem State.isrStep_of_led (s : State) (h : s.isrPhase = .led) :
    s.isrStep = (s.setduty .ch1 s.ledOut.toNat).toPhase .ret := by
  simp [State.isrStep, h]

theorem State.isrStep_of_ret (s : State) (h : s.isrPhase = .ret) : s.isrStep = s.isrReturn := by
  simp [State.isrStep, h]

/-- What a phase may write. -/
theorem State.isrStep_sameBut (s : State) : SameBut (phaseWrites s.isrPhase) s s.isrStep := by
  cases h : s.isrPhase with
  | ack => exact s.isrStep_of_ack h ▸ s.isrAck_sameBut.comp (s.isrAck.toPhase_sameBut _)
  | tick =>
    exact s.isrStep_of_tick h ▸ (s.tick_sameBut.comp (s.tick.toPhase_sameBut .servo)).mono (by decide)
  | servo =>
    exact s.isrStep_of_servo h ▸
      ((s.setduty_sameBut .ch0 s.servoOut.toNat).comp ((s.setduty .ch0 _).toPhase_sameBut .led)).mono (by decide)
  | led =>
    exact s.isrStep_of_led h ▸
      ((s.setduty_sameBut .ch1 s.ledOut.toNat).comp ((s.setduty .ch1 _).toPhase_sameBut .ret)).mono (by decide)
  | ret => exact s.isrStep_of_ret h ▸ s.isrReturn_sameBut

/-- A phase leaves the handler only at phase 4. -/
theorem State.isrStep_inHandler (s : State) :
    s.isrStep.inHandler = (if s.isrPhase = .ret then false else s.inHandler) := by
  unfold State.isrStep
  split <;> simp_all

/-- The phase after a phase. -/
theorem State.isrStep_isrPhase (s : State) : s.isrStep.isrPhase =
    (match s.isrPhase with | .ack => .tick | .tick => .servo | .servo => .led | .led => .ret | .ret => .ack) := by
  unfold State.isrStep
  split <;> simp_all

end Machine

end Sys2Proof
end

