-- ==== Sys2Proof/Laws/PerInstr.lean ====
section
/-! SUPPORT. One law per operation, for all of Instr: an operation's word fits its row of the opcode table
(30_encoding.md R69). -/

namespace Sys2Proof.Laws

/-- A 16-bit immediate under a mask on the upper half of the word. -/
theorem formatO_wide (op : BitVec 4) (imm : BitVec 16) :
    formatO op 0#4 0#8 imm &&& 0xFFFF0000#32 = formatO op 0#4 0#8 0#16 := by
  refine BitVec.eq_of_getLsbD_eq fun i hi => ?_
  simp only [formatO, BitVec.getLsbD_and, BitVec.getLsbD_append]
  interval_cases i <;> simp

/-- The word of a well-formed operation fits the operation's row. -/
def EncodeFits.Statement (i : Instr) : Prop := i.wf = true → i.row.fits (encode i) = true

theorem EncodeFits.calculate (imm : BitVec 16) : EncodeFits.Statement (.calculate imm) := fun _ => by
  simp [OpcodeRow.fits, Instr.row, encode, formatO_wide]; rfl

theorem EncodeFits.apply (ch : Channel) : EncodeFits.Statement (.apply ch) := fun _ => by cases ch <;> rfl

theorem EncodeFits.setduty (ch : Channel) (imm : BitVec 16) : EncodeFits.Statement (.setduty ch imm) := fun _ => by
  simp only [OpcodeRow.fits, Instr.row, encode, Bool.not_false, Bool.true_or, Bool.and_true, beq_iff_eq]
  refine BitVec.eq_of_getLsbD_eq fun i hi => ?_
  cases ch <;> simp only [formatO, Channel.field, BitVec.getLsbD_and, BitVec.getLsbD_append] <;>
    interval_cases i <;> simp

theorem EncodeFits.setdiv (ch : Channel) (d : BitVec 8) : EncodeFits.Statement (.setdiv ch d) := by
  unfold EncodeFits.Statement
  cases ch <;> revert d <;> decide

theorem EncodeFits.tick : EncodeFits.Statement .tick := fun _ => rfl

theorem EncodeFits.reinit : EncodeFits.Statement .reinit := fun _ => rfl

theorem EncodeFits.ack (b : BitVec 2) : EncodeFits.Statement (.ack b) := by
  unfold EncodeFits.Statement; revert b; decide

theorem EncodeFits.irqmask (b : BitVec 2) : EncodeFits.Statement (.irqmask b) := by
  unfold EncodeFits.Statement; revert b; decide

theorem EncodeFits.irqen (on : Bool) : EncodeFits.Statement (.irqen on) := by
  unfold EncodeFits.Statement; revert on; decide

theorem EncodeFits.delay (imm : BitVec 16) : EncodeFits.Statement (.delay imm) := fun _ => by
  simp [OpcodeRow.fits, Instr.row, encode, formatO_wide]; rfl

theorem EncodeFits.idle : EncodeFits.Statement .idle := fun _ => rfl

theorem EncodeFits.ldwrap (imm : BitVec 16) : EncodeFits.Statement (.ldwrap imm) := fun _ => by
  simp [OpcodeRow.fits, Instr.row, encode, formatO_wide]; rfl

theorem EncodeFits.ldthr (imm : BitVec 16) : EncodeFits.Statement (.ldthr imm) := fun _ => by
  simp [OpcodeRow.fits, Instr.row, encode, formatO_wide]; rfl

end Sys2Proof.Laws
end

