-- ==== Sys2Proof/Laws/Step.lean ====
section
/-! SUPPORT. What a step can do, said once: the verdict, whose turn it is, what that agent's step is, and the inversion
of step into one of three agent steps. -/

namespace Sys2Proof.Machine

/-- exec always answers a next state: 30_encoding.md R77, no operation faults or is refused during a run. -/
theorem exec_next (i : Instr) (s : State) : ∃ t, exec i s = .next t := by
  cases i <;> exact ⟨_, rfl⟩

/-- firstIllegal finds nothing exactly in programs whose words all decode. -/
theorem firstIllegal_eq_none (p : List Word) : firstIllegal p = none ↔ ∀ w ∈ p, ∃ i, decode w = .ok i := by
  induction p with
  | nil => simp [firstIllegal]
  | cons w ws ih =>
    cases h : decode w with
    | ok i => simp [firstIllegal, h, ih]
    | error e => simp [firstIllegal, h]

/-- The verdict is clear exactly for a well-formed configuration and a program of legal words (R17, R77). -/
theorem verdict_eq_none (s : State) :
    s.verdict = none ↔ s.cfg.wf = true ∧ ∀ w ∈ s.prog, ∃ i, decode w = .ok i := by
  unfold State.verdict
  split <;> simp_all [firstIllegal_eq_none]

/-- Whether an agent has a step does not depend on the schedule. -/
@[simp] theorem enabled_sched (s : State) (l : List Agent) (n : Nat) (a : Agent) :
    enabled { s with sched := l, draws := n } a = enabled s a := by
  cases a <;> rfl

/-- The agent firstEnabled finds has a step. -/
theorem firstEnabled_enabled (s : State) : ∀ (l : List Agent) (a : Agent) (rest : List Agent),
    firstEnabled s l = some (a, rest) → enabled s a = true
  | [], _, _, h => by simp [firstEnabled] at h
  | b :: l, a, rest, h => by
    unfold firstEnabled at h
    split at h
    · next hb => simp only [Option.some.injEq, Prod.mk.injEq] at h; exact h.1 ▸ hb
    · exact firstEnabled_enabled s l a rest h

/-- The agent whose turn it is has a step (20_memory.md R58). -/
theorem takeTurn_enabled (s : State) : enabled s (takeTurn s).1 = true := by
  unfold takeTurn
  split
  · next h => exact firstEnabled_enabled s _ _ _ h
  · dsimp only
    split
    · assumption
    · rfl

/-- Taking a turn uses up the schedule and changes nothing else. -/
theorem takeTurn_state (s : State) :
    ∃ l n, (takeTurn s).2 = { s with sched := l, draws := n } := by
  unfold takeTurn
  split
  · exact ⟨_, s.draws, rfl⟩
  · exact ⟨[], _, rfl⟩

/-- The HOST has a step exactly when it is not suspended, not idle and a word is left. -/
theorem enabled_host_iff (s : State) :
    enabled s .host = true ↔ s.inHandler = false ∧ s.hostIdle = false ∧ s.hpc < s.prog.length := by
  simp [enabled, and_assoc]

/-- The sequencer has a step exactly in the handler or with the line high. -/
theorem enabled_isr_iff (s : State) : enabled s .isr = true ↔ s.inHandler = true ∨ irq s = true := by
  simp [enabled]

/-- An agent that has a step takes it. -/
theorem agentStep_isSome (a : Agent) (s : State) : (agentStep a s).isSome = enabled s a := by
  unfold agentStep
  split
  · next h =>
    rw [h]
    cases a with
    | host =>
      obtain ⟨-, -, hl⟩ := (enabled_host_iff s).1 h
      simp only [hostStep, State.fetch, List.getElem?_eq_getElem hl]
      split <;> rfl
    | timer => rfl
    | isr => rfl
  · next h => simp [h]

/-- A step of an agent that answers a next state is one of three: an operation of the host, a TIMER tick, or a step of
the sequencer. -/
theorem agentStep_cases {a : Agent} {s t : State} (h : agentStep a s = some (.next t)) :
    (a = .host ∧ s.inHandler = false ∧ s.hostIdle = false ∧ s.hpc < s.prog.length ∧
      ∃ w i, s.fetch = some w ∧ decode w = .ok i ∧ exec i s = .next t) ∨
    (a = .timer ∧ t = s.timerStep) ∨
    (a = .isr ∧ s.inHandler = true ∧ t = s.isrStep) ∨
    (a = .isr ∧ s.inHandler = false ∧ irq s = true ∧ t = s.isrEnter) := by
  unfold agentStep at h
  split at h
  · next he =>
    cases a with
    | host =>
      obtain ⟨h1, h2, h3⟩ := (enabled_host_iff s).1 he
      refine .inl ⟨rfl, h1, h2, h3, ?_⟩
      simp only [hostStep] at h
      cases hf : s.fetch with
      | none => simp [hf] at h
      | some w =>
        cases hd : decode w with
        | error e => simp [hf, hd] at h
        | ok i => exact ⟨w, i, rfl, hd, by simpa [hf, hd] using h⟩
    | timer => exact .inr (.inl ⟨rfl, by simpa using h.symm⟩)
    | isr =>
      have ht : t = s.sequencerStep := by simpa using h.symm
      rcases Bool.eq_false_or_eq_true s.inHandler with hh | hh
      · exact .inr (.inr (.inl ⟨rfl, hh, by simpa [State.sequencerStep, hh] using ht⟩))
      · have hi := ((enabled_isr_iff s).1 he).resolve_left (by simp [hh])
        exact .inr (.inr (.inr ⟨rfl, hh, hi, by simpa [State.sequencerStep, hh] using ht⟩))
  · cases h

/-- No operation writes the run's parameters or the schedule. -/
theorem exec_sameRun {i : Instr} {s t : State} (h : exec i s = .next t) : SameRun s t := by
  cases i <;>
    simp only [exec, execCalc, execApply, execSetduty, execSetdiv, execTick, execReinit, execAck, execIrqmask, execIrqen,
      execDelay, execIdle, execLdwrap, execLdthr, Host.Outcome.next.injEq] at h <;>
    subst h <;> simp [SameRun]

/-- No step of an agent writes the run's parameters or the schedule. -/
theorem agentStep_sameRun {a : Agent} {s t : State} (h : agentStep a s = some (.next t)) : SameRun s t := by
  rcases agentStep_cases h with ⟨-, -, -, -, w, i, -, -, he⟩ | ⟨-, rfl⟩ | ⟨-, -, rfl⟩ | ⟨-, -, -, rfl⟩
  · exact exec_sameRun he
  · exact s.timerStep_sameBut.2
  · exact s.isrStep_sameBut.2
  · exact s.isrEnter_sameBut.2

/-- The verdict looks at the run's parameters only. -/
theorem SameRun.verdict {s t : State} (h : SameRun s t) : t.verdict = s.verdict := by
  unfold State.verdict; rw [h.1, h.2.1]

/-- In a run an agent that has a step answers a next state. -/
theorem agentStep_next {a : Agent} {s : State} (hv : s.verdict = none) (he : enabled s a = true) :
    ∃ t, agentStep a s = some (.next t) := by
  cases a with
  | host =>
    obtain ⟨-, -, hl⟩ := (enabled_host_iff s).1 he
    obtain ⟨i, hi⟩ := ((verdict_eq_none s).1 hv).2 _ (List.getElem_mem hl)
    obtain ⟨t, ht⟩ := exec_next i s
    exact ⟨t, by simp [agentStep, he, hostStep, State.fetch, List.getElem?_eq_getElem hl, hi, ht]⟩
  | timer => exact ⟨_, rfl⟩
  | isr => exact ⟨s.sequencerStep, by simp [agentStep, he]⟩

/-- A TIMER step is always there. -/
@[simp] theorem agentStep_timer (s : State) : agentStep .timer s = some (.next s.timerStep) := rfl

/-- In the handler the sequencer runs a phase. -/
theorem agentStep_isr_of_inHandler (s : State) (h : s.inHandler = true) :
    agentStep .isr s = some (.next s.isrStep) := by
  simp [agentStep, enabled, State.sequencerStep, h]

/-- Outside the handler the sequencer enters where the line is high. -/
theorem agentStep_isr_of_irq (s : State) (h : s.inHandler = false) (hi : irq s = true) :
    agentStep .isr s = some (.next s.isrEnter) := by
  simp [agentStep, enabled, State.sequencerStep, h, hi]

/-- A step that answers a next state is the step of the agent whose turn it is, and the verdict was clear. -/
theorem step_cases {s t : State} (h : step s = .next t) :
    s.verdict = none ∧ agentStep (takeTurn s).1 (takeTurn s).2 = some (.next t) := by
  unfold step at h
  cases hv : s.verdict with
  | some r => simp [hv] at h
  | none =>
    refine ⟨rfl, ?_⟩
    simp only [hv, turnStep] at h
    have he : (agentStep (takeTurn s).1 (takeTurn s).2).isSome = true := by
      obtain ⟨l, n, hs⟩ := takeTurn_state s
      rw [agentStep_isSome, hs, enabled_sched]
      exact takeTurn_enabled s
    cases ha : agentStep (takeTurn s).1 (takeTurn s).2 with
    | none => simp [ha] at he
    | some o => simp only [ha] at h; rw [h]

/-- What a step can do, in full: with the turn taken, an operation of the host, a TIMER tick, a phase or entry. -/
theorem step_next_cases {s t : State} (h : step s = .next t) :
    s.verdict = none ∧ ∃ l n, ∃ s', s' = { s with sched := l, draws := n } ∧
    ((s.inHandler = false ∧ s.hostIdle = false ∧ s.hpc < s.prog.length ∧
        ∃ w i, s.fetch = some w ∧ decode w = .ok i ∧ exec i s' = .next t) ∨
      t = s'.timerStep ∨ (s.inHandler = true ∧ t = s'.isrStep) ∨
      (s.inHandler = false ∧ irq s = true ∧ t = s'.isrEnter)) := by
  obtain ⟨hv, ha⟩ := step_cases h
  obtain ⟨l, n, hs⟩ := takeTurn_state s
  rw [hs] at ha
  refine ⟨hv, l, n, _, rfl, ?_⟩
  rcases agentStep_cases ha with ⟨-, h1, h2, h3, h4⟩ | ⟨-, h1⟩ | ⟨-, h1, h2⟩ | ⟨-, h1, h2, h3⟩
  · exact .inl ⟨h1, h2, h3, h4⟩
  · exact .inr (.inl h1)
  · exact .inr (.inr (.inl ⟨h1, h2⟩))
  · exact .inr (.inr (.inr ⟨h1, h2, h3⟩))

/-- The scheduled agent moves, where it has a step. -/
theorem takeTurn_of_sched (s : State) (a : Agent) (rest : List Agent) (he : enabled s a = true)
    (hs : s.sched = a :: rest) : takeTurn s = (a, { s with sched := rest }) := by
  simp [takeTurn, hs, firstEnabled, he]

end Sys2Proof.Machine
end

