-- ==== Sys2Proof/Machine/Boot.lean ====
section
/-! DEFINITION. Host programs the spec names: the pseudo-operations of 30_encoding.md R79 and the boot program of
70_reset_and_hazards.md R196. -/

namespace Sys2Proof.Machine

/-- `ARM` (R79): both channels monitored, the interrupt enabled. -/
def armOps : List Instr := [.irqmask 3#2, .irqen true]

/-- `DISARM` (R79). -/
def disarmOps : List Instr := [.irqen false]

/-- `NOP` (R79). -/
def nopOps : List Instr := [.delay 0#16]

/-- A host program as the words of its operations. -/
def programWords (ops : List Instr) : List Word := ops.map encode

/-- The word of `SETDIV ch, imm` for any 16-bit immediate, legal or not (30_encoding.md R66, R68): R74 makes it illegal
where `imm` is 0 or above 255. -/
def setdivWord (ch : Channel) (imm : BitVec 16) : Word := formatO 0x4#4 ch.field 0#8 imm

/-- The boot program after its two SETDIVs (R196). Its startup channel, duty values and delay are OPEN parameters (D28),
so they are arguments (entry 16). -/
def startupOps (startup : Channel) (full mid zero delay : BitVec 16) : List Instr :=
  [ .setduty startup full,
    .delay delay,
    .setduty startup mid,
    .delay delay,
    .setduty startup zero ] ++ armOps ++ [.idle]

/-- The boot program (R196) as its words. `PRESCALER` is SETDIV's immediate, whole: above 255 the words are illegal
(R74) and the program is refused (R77). None where `PRESCALER` has more than the immediate's 16 bits, since no word spells
it (entry 16). -/
def bootWords (c : Config) (startup : Channel) (full mid zero delay : BitVec 16) : Option (List Word) :=
  if c.prescaler < 2 ^ 16 then
    some ([ setdivWord .ch0 (BitVec.ofNat 16 c.prescaler), setdivWord .ch1 (BitVec.ofNat 16 c.prescaler) ] ++
      programWords (startupOps startup full mid zero delay))
  else none

end Sys2Proof.Machine
end

