-- ==== Sys2Proof/Machine/Asm.lean ====
section
/-! DEFINITION. The assembler syntax of 30_encoding.md R78 with the pseudo-operations of R79: text to operation words.
Text is a list of characters. What R78 does not say of spaces, letter case and ranges is in entry 14. -/

namespace Sys2Proof.Machine

/-- A space, a tab or a carriage return. -/
def asmSpace (c : Char) : Bool := c == ' ' || c == '\t' || c == '\r'

/-- A line without its comment: "A comment runs from `;` to the end of the line" (R78). -/
def dropComment (line : List Char) : List Char := line.takeWhile (· != ';')

/-- A token that has been read backwards, put before the tokens after it, if there is one. -/
def flushToken (cur : List Char) (after : List (List Char)) : List (List Char) :=
  if cur.isEmpty then after else cur.reverse :: after

/-- The tokens of a line; a comma is a token. `cur` is the token being read, backwards. -/
def asmTokens : List Char → List Char → List (List Char)
  | [], cur => flushToken cur []
  | c :: cs, cur =>
    if asmSpace c then flushToken cur (asmTokens cs [])
    else if c = ',' then flushToken cur ([','] :: asmTokens cs [])
    else asmTokens cs (c :: cur)

/-- A decimal digit. -/
def decDigit (c : Char) : Option Nat :=
  if '0'.toNat ≤ c.toNat ∧ c.toNat ≤ '9'.toNat then some (c.toNat - '0'.toNat) else none

/-- A hexadecimal digit, in either case. -/
def hexDigit (c : Char) : Option Nat :=
  match decDigit c with
  | some d => some d
  | none =>
    if 'A'.toNat ≤ c.toNat ∧ c.toNat ≤ 'F'.toNat then some (c.toNat - 'A'.toNat + 10)
    else if 'a'.toNat ≤ c.toNat ∧ c.toNat ≤ 'f'.toNat then some (c.toNat - 'a'.toNat + 10)
    else none

/-- The number that digits spell after the value read so far. -/
def readDigits (base : Nat) (digit : Char → Option Nat) : List Char → Nat → Option Nat
  | [], acc => some acc
  | c :: cs, acc =>
    match digit c with
    | some d => readDigits base digit cs (acc * base + d)
    | none => none

/-- An immediate: "in decimal, or in hex with a `0x` prefix" (R78). -/
def asmNumber : List Char → Option Nat
  | [] => none
  | '0' :: 'x' :: d :: ds => readDigits 16 hexDigit (d :: ds) 0
  | ds => readDigits 10 decDigit ds 0

/-- A channel: "`ch` is written `0` or `1`" (R78). -/
def asmChannel : List Char → Option Channel
  | ['0'] => some .ch0
  | ['1'] => some .ch1
  | _ => none

/-- A 16-bit immediate. -/
def asmImm16 (t : List Char) : Option (BitVec 16) :=
  (asmNumber t).bind fun n => if n < 2 ^ 16 then some (BitVec.ofNat 16 n) else none

/-- A channel bit set, 0 to 3. -/
def asmChanSet (t : List Char) : Option (BitVec 2) :=
  (asmNumber t).bind fun n => if n < 4 then some (BitVec.ofNat 2 n) else none

/-- A flag, 0 or 1. -/
def asmFlag (t : List Char) : Option Bool :=
  (asmNumber t).bind fun n => if n < 2 then some (n == 1) else none

/-- A divisor, 1 to 255 (R74). -/
def asmDivisor (t : List Char) : Option (BitVec 8) :=
  (asmNumber t).bind fun n => if 1 ≤ n ∧ n ≤ 255 then some (BitVec.ofNat 8 n) else none

/-- Operations and pseudo-operations without operands (R78, R79). -/
def asmPlain (m : List Char) : Option (List Instr) :=
  if m = "TICK".toList then some [.tick]
  else if m = "REINIT".toList then some [.reinit]
  else if m = "IDLE".toList then some [.idle]
  else if m = "ARM".toList then some armOps
  else if m = "DISARM".toList then some disarmOps
  else if m = "NOP".toList then some nopOps
  else none

/-- Operations with one operand (R78). -/
def asmUnary (m a : List Char) : Option Instr :=
  if m = "CALC".toList then (asmImm16 a).map .calculate
  else if m = "APPLY".toList then (asmChannel a).map .apply
  else if m = "ACK".toList then (asmChanSet a).map .ack
  else if m = "IRQMASK".toList then (asmChanSet a).map .irqmask
  else if m = "IRQEN".toList then (asmFlag a).map .irqen
  else if m = "DELAY".toList then (asmImm16 a).map .delay
  else if m = "LDWRAP".toList then (asmImm16 a).map .ldwrap
  else if m = "LDTHR".toList then (asmImm16 a).map .ldthr
  else none

/-- Operations with a channel and an immediate (R78). -/
def asmBinary (m ch a : List Char) : Option Instr :=
  if m = "SETDUTY".toList then (asmChannel ch).bind fun c => (asmImm16 a).map (.setduty c)
  else if m = "SETDIV".toList then (asmChannel ch).bind fun c => (asmDivisor a).map (.setdiv c)
  else none

/-- The operations a line's tokens spell: "one operation per line: `MNEMONIC [ch ,] [imm]`" (R78); a line without tokens
spells none. -/
def asmOps : List (List Char) → Option (List Instr)
  | [] => some []
  | [m] => asmPlain m
  | [m, a] => (asmUnary m a).map fun i => [i]
  | [m, ch, comma, a] => if comma = [','] then (asmBinary m ch a).map fun i => [i] else none
  | _ => none

/-- The lines of a text. `cur` is the line being read, backwards. -/
def asmLines : List Char → List Char → List (List Char)
  | [], cur => [cur.reverse]
  | c :: cs, cur => if c = '\n' then cur.reverse :: asmLines cs [] else asmLines cs (c :: cur)

/-- The operations of a list of lines; none where a line is not of R78's syntax. -/
def asmProgram : List (List Char) → Option (List Instr)
  | [] => some []
  | l :: ls =>
    (asmOps (asmTokens (dropComment l) [])).bind fun here => (asmProgram ls).map fun after => here ++ after

/-- A program text assembled to its words. -/
def assemble (text : List Char) : Option (List Word) := (asmProgram (asmLines text [])).map programWords

end Sys2Proof.Machine
end

