-- ==== Sys2Proof/Tests/Slice0.lean ====
section
/-! SUPPORT. Tests, with results from the spec's own tables (95_test_vectors.md, 30_encoding.md R81, 00_scope.md R17) or
worked out from its rules, and a witness for the hypotheses of every statement. -/

namespace Sys2Proof.Tests

open Sys2Proof.Machine Sys2Proof.Safety Sys2Proof.Stated

/-- The operation answers a next state, of which `p` holds. -/
def after (i : Instr) (s : State) (p : State → Bool) : Bool :=
  match exec i s with
  | .next t => p t
  | .fault _ => false
  | .refused _ => false

/-- Reset with the sweep at the given state. -/
def sweepAt (duty : BitVec 16) (dir : Direction) (init : Bool) : State :=
  { State.reset with duty := duty, dir := dir, init := init }

/-- A running channel. -/
def running (wrap cc wrapAct ccAct ctr : Nat) : ChannelRegs := ⟨wrap, cc, true, 1#8, wrapAct, ccAct, ctr⟩

/-- Reset with the interrupt pending and open. -/
def pending : State := { State.reset with intRaw := 1#2, intMask := 3#2, irqGen := true }

/-- Reset in the handler, at a phase, with the condition still pending. -/
def inPhase (p : IsrPhase) : State := { pending with inHandler := true, isrPhase := p }

/-- Reset with a program, the host first. -/
def loaded (p : List Word) : State := { State.reset with prog := p, sched := [.host] }

/-! ## WellFormed: an ill-formed term for each check -/

/-- R74: a divisor of 0. -/
theorem test_setdiv_zero_is_ill_formed :
    (Instr.setdiv .ch0 0#8).wf = false ∧ (Instr.setdiv .ch0 1#8).wf = true := by decide

/-- R17, condition by condition (V-C's corner cases and two more). -/
theorem test_ill_formed_configurations :
    Config.default.wf = true ∧ Config.wf { Config.default with clockHz := 0 } = false ∧
    Config.wf { Config.default with carrierHz := 0 } = false ∧
    Config.wf { Config.default with carrierHz := 1000001, clockHz := 125000000000 } = false ∧
    Config.wf { Config.default with prescaler := 0 } = false ∧ Config.wf { Config.default with prescaler := 1 } = false ∧
    Config.wf { Config.default with clockHz := 100 } = false ∧ Config.wf { Config.default with stepUs := 0 } = false ∧
    Config.wf { Config.default with lower := 2400, upper := 500 } = false ∧
    Config.wf { Config.default with stepUs := 501 } = false ∧
    Config.wf { Config.default with upper := 65531 } = false := by decide

/-- V-C's last row: accepted, with its threshold. -/
theorem test_carrier_60 :
    Config.wf { Config.default with carrierHz := 60 } = true ∧
    Config.wrapValue { Config.default with carrierHz := 60 } = 32552 ∧
    Config.calcThr { Config.default with carrierHz := 60 } 1470 = 2871 := by decide

/-! ## Decoding: V-D and R81 -/

theorem test_decode_channel_words :
    decode 0x100005BE = .ok (.calculate 1470#16) ∧ decode 0x20000000 = .ok (.apply .ch0) ∧
    decode 0x21000000 = .ok (.apply .ch1) ∧ decode 0x31000000 = .ok (.setduty .ch1 0#16) ∧
    decode 0x30000960 = .ok (.setduty .ch0 2400#16) ∧ decode 0x40000040 = .ok (.setdiv .ch0 64#8) ∧
    decode 0x400000FF = .ok (.setdiv .ch0 255#8) ∧ decode 0x41000001 = .ok (.setdiv .ch1 1#8) := by decide

theorem test_decode_other_words :
    decode 0x50000000 = .ok .tick ∧ decode 0x60000000 = .ok .reinit ∧ decode 0x70000003 = .ok (.ack 3#2) ∧
    decode 0x80000003 = .ok (.irqmask 3#2) ∧ decode 0x90000001 = .ok (.irqen true) ∧
    decode 0x90000000 = .ok (.irqen false) ∧ decode 0xA000FFFF = .ok (.delay 65535#16) ∧
    decode 0xB0000000 = .ok .idle ∧ decode 0xC0009896 = .ok (.ldwrap 39062#16) ∧
    decode 0xD0000B37 = .ok (.ldthr 2871#16) := by decide

theorem test_decode_refusals_op_ch_imm :
    decode 0x00000000 = .error .reservedOpcode ∧ decode 0xE0000000 = .error .reservedOpcode ∧
    decode 0xF0000000 = .error .reservedOpcode ∧ decode 0xFFFFFFFF = .error .reservedOpcode ∧
    decode 0x22000000 = .error .badChannel ∧ decode 0x3F000000 = .error .badChannel ∧
    decode 0x40000000 = .error .badImmediate ∧ decode 0x40000100 = .error .badImmediate := by decide

theorem test_decode_refusals_reserved_bits :
    decode 0x110005BE = .error .reservedBits ∧ decode 0x100105BE = .error .reservedBits ∧
    decode 0x20000001 = .error .reservedBits ∧ decode 0x30FF0000 = .error .reservedBits ∧
    decode 0x50000001 = .error .reservedBits ∧ decode 0x5F000000 = .error .reservedBits ∧
    decode 0x70000004 = .error .reservedBits ∧ decode 0x80000007 = .error .reservedBits ∧
    decode 0x90000002 = .error .reservedBits ∧ decode 0xB1000000 = .error .reservedBits := by decide

/-- R53: the least significant byte first. -/
theorem test_word_bytes :
    wordBytes 0x100005BE = [0xBE#8, 0x05#8, 0x00#8, 0x10#8] ∧
    decodeTableWord 32 0x100005BE = some (.calculate 1470#16) ∧ decodeTableWord 32 0x00000000 = none := by decide

/-- R78, R79: the text of L3-3's end, with a pseudo-operation and a comment. -/
theorem test_assemble :
    assemble "SETDUTY 0, 0x1F4 ; ZERO\n\nARM\nIDLE".toList =
      some [0x300001F4, 0x80000003, 0x90000001, 0xB0000000] ∧
    assemble "SETDIV 0, 256".toList = none := by decide

/-- L3-3: the words of the boot program; and for `PRESCALER` = 320 a SETDIV word that R74 makes illegal, so that R77
refuses the program. -/
theorem test_boot_words :
    bootWords .default .ch0 2400#16 1470#16 500#16 500#16 =
      some [0x40000040, 0x41000040, 0x30000960, 0xA00001F4, 0x300005BE, 0xA00001F4, 0x300001F4, 0x80000003, 0x90000001,
        0xB0000000] ∧
    (bootWords { Config.default with prescaler := 320 } .ch0 2400#16 1470#16 500#16 500#16).bind List.head? =
      some 0x40000140 ∧
    (bootWords { Config.default with prescaler := 320 } .ch0 2400#16 1470#16 500#16 500#16).bind firstIllegal =
      some .badImmediate ∧
    Config.wf { Config.default with prescaler := 320 } = true := by decide

/-! ## Operations -/

/-- W1, R99. -/
theorem test_calc_1470 :
    after (.calculate 1470#16) .reset (fun t => t.calcWrap == 39062 && t.calcThr == 2871 && t.hpc == 1) = true := by
  decide

/-- V-C's thresholds at the ends of the table. -/
theorem test_calc_corners :
    Config.default.calcThr 20000 = 39062 ∧ Config.default.calcThr 20001 = 39063 ∧
    Config.default.calcThr 33554 = 65534 ∧ Config.default.calcThr 33555 = 65536 ∧
    Config.default.calcThr 65535 = 127996 := by decide

/-- V-H: APPLY after a CALC, on a disabled channel. -/
theorem test_apply_enables :
    after (.apply .ch0) { State.reset with calcWrap := 39062, calcThr := 2871 } (fun t =>
      t.ch0 == ⟨39062, 2871, true, 1#8, 39062, 2871, 0⟩ && t.ch1 == .reset) = true := by decide

/-- V-H: APPLY on a running channel, under both update modes. -/
theorem test_apply_running :
    after (.apply .ch0)
      { State.reset with ch0 := running 39062 2871 39062 2871 100, calcWrap := 39062, calcThr := 4882 }
      (fun t => t.ch0 == running 39062 4882 39062 2871 100) = true ∧
    after (.apply .ch0)
      { State.reset with cfg := { Config.default with updateMode := .immediate },
                         ch0 := running 39062 2871 39062 2871 100, calcWrap := 39062, calcThr := 4882 }
      (fun t => t.ch0 == running 39062 4882 39062 4882 100) = true := by decide

/-- V-H: SETDUTY 0, 33555 and SETDUTY 0, 65535 narrow to the register. -/
theorem test_setduty_narrows :
    after (.setduty .ch0 33555#16) .reset (fun t => t.calcThr == 65536 && t.ch0.cc == 0) = true ∧
    after (.setduty .ch0 65535#16) .reset (fun t => t.calcThr == 127996 && t.ch0.cc == 62460) = true := by decide

/-- V-H: SETDUTY 1, 0. -/
theorem test_setduty_zero :
    after (.setduty .ch1 0#16) .reset (fun t =>
      t.calcWrap == 39062 && t.calcThr == 0 && t.ch1.cc == 0 && t.ch1.en && !t.ch0.en) = true := by decide

/-- V-H: SETDIV 0, 64. -/
theorem test_setdiv : after (.setdiv .ch0 64#8) .reset (fun t =>
    t == { State.reset with ch0 := { ChannelRegs.reset with div := 64#8 }, hpc := 1 }) = true := by decide

/-- R106, R107. -/
theorem test_latch_loads :
    after (.ldwrap 39062#16) .reset (fun t => t.calcWrap == 39062 && t.calcThr == 0) = true ∧
    after (.ldthr 2871#16) .reset (fun t => t.calcThr == 2871 && t.calcWrap == 0) = true := by decide

/-- W5 and V-S4: the flips. -/
theorem test_tick_flips :
    after .tick (sweepAt 2395#16 .increasing true) (fun t =>
      t.servoOut == 2395#16 && t.ledOut == 5736025#32 && t.duty == 2400#16 && t.dir == .decreasing) = true ∧
    after .tick (sweepAt 505#16 .decreasing true) (fun t =>
      t.servoOut == 505#16 && t.duty == 500#16 && t.dir == .increasing) = true := by decide

/-- V-S4: an uninitialized sweep starts from LOWER, in both directions. -/
theorem test_tick_uninitialized :
    after .tick (sweepAt 7#16 .decreasing false) (fun t =>
      t.servoOut == 500#16 && t.ledOut == 250000#32 && t.duty == 495#16 && t.dir == .increasing && t.init) = true ∧
    after .tick .reset (fun t => t.servoOut == 500#16 && t.duty == 505#16 && t.dir == .increasing && t.init) = true := by
  decide

/-- W6: REINIT leaves DUTY and DIR. -/
theorem test_reinit : after .reinit (sweepAt 1200#16 .decreasing true) (fun t =>
    !t.init && t.duty == 1200#16 && t.dir == .decreasing) = true := by decide

/-- V-K: write 1 to clear. -/
theorem test_ack :
    after (.ack 1#2) { State.reset with intRaw := 3#2 } (fun t => t.intRaw == 2#2) = true ∧
    after (.ack 0#2) { State.reset with intRaw := 1#2 } (fun t => t.intRaw == 1#2) = true := by decide

/-- V-K. -/
theorem test_mask_and_enable :
    after (.irqmask 3#2) .reset (fun t => t.intMask == 3#2) = true ∧
    after (.irqen true) .reset (fun t => t.irqGen) = true ∧
    after (.irqen false) pending (fun t => !t.irqGen && t.intRaw == 1#2) = true := by decide

/-- V-K: DELAY and IDLE. -/
theorem test_delay_and_idle :
    after (.delay 500#16) .reset (fun t => t == { State.reset with hpc := 1 }) = true ∧
    after .idle .reset (fun t => t == { State.reset with hpc := 1, hostIdle := true }) = true := by decide

/-! ## Line, timer, handler -/

/-- V-K's line vectors. -/
theorem test_irq_line :
    irq { State.reset with irqGen := false, intMask := 3#2, intRaw := 3#2 } = false ∧
    irq { State.reset with irqGen := true, intMask := 0#2, intRaw := 3#2 } = false ∧
    irq { State.reset with irqGen := true, intMask := 1#2, intRaw := 2#2 } = false ∧
    irq { State.reset with irqGen := true, intMask := 2#2, intRaw := 2#2 } = true ∧
    irq { State.reset with irqGen := true, intMask := 3#2, intRaw := 1#2 } = true := by decide

/-- V-I1: TIMER step 39,062 is the wrap, which loads the shadow; the step before it is not. -/
theorem test_timer_wrap :
    State.timerStep { State.reset with ch0 := running 39062 976 39062 4687 39060 } =
      { State.reset with ch0 := running 39062 976 39062 4687 39061 } ∧
    State.timerStep { State.reset with ch0 := running 39062 976 39062 4687 39061 } =
      { State.reset with ch0 := running 39062 976 39062 976 0, intRaw := 1#2 } := by decide

/-- V-H: a wrap of 1 and a wrap of 0 both wrap at every step. -/
theorem test_timer_short_wrap :
    (State.timerStep { State.reset with ch1 := running 1 1 1 1 0 }).intRaw = 2#2 ∧
    (State.timerStep { State.reset with ch1 := running 0 0 0 0 0 }).intRaw = 2#2 := by decide

/-- R112: the output below and at the compare value, and of a disabled channel. -/
theorem test_pwm_out :
    pwmOut { State.reset with ch0 := running 10 3 10 3 2 } .ch0 = true ∧
    pwmOut { State.reset with ch0 := running 10 3 10 3 3 } .ch0 = false ∧
    pwmOut { State.reset with ch0 := { running 10 3 10 3 2 with en := false } } .ch0 = false := by decide

/-- V-I2: phases 0 to 2. -/
theorem test_handler_first_phases :
    pending.sequencerStep = inPhase .ack ∧
    (inPhase .ack).sequencerStep = { inPhase .tick with intRaw := 0#2 } ∧
    (inPhase .tick).sequencerStep.servoOut = 500#16 ∧ (inPhase .tick).sequencerStep.duty = 505#16 ∧
    State.sequencerStep { inPhase .servo with servoOut := 500#16, ch0 := running 39062 976 39062 976 0 } =
      { inPhase .led with servoOut := 500#16, ch0 := running 39062 976 39062 976 0, calcWrap := 39062,
                          calcThr := 976 } := by decide

/-- V-I2: phases 3 and 4. -/
theorem test_handler_last_phases :
    (State.sequencerStep { inPhase .led with ledOut := 250000#32 }).calcThr = 104279 ∧
    (State.sequencerStep { inPhase .led with ledOut := 250000#32 }).ch1 = running 39062 38743 39062 38743 0 ∧
    (inPhase .ret).sequencerStep = pending := by decide

/-- V-L, the row of d = 2400, under the three parameter choices. -/
theorem test_led_path :
    (State.setduty .reset .ch1 5760000).ch1.cc = 48462 ∧
    (State.setduty { State.reset with cfg := { Config.default with pathWidth := .unlimited } } .ch1 5760000).ch1.cc
      = 43200 ∧
    (State.setduty { State.reset with cfg := { Config.default with pathWidth := .unlimited, productWidth := .bits32 } }
      .ch1 5760000).ch1.cc = 17405 := by decide

/-- R77: an illegal word further on refuses the run; a configuration that is not well formed does too. -/
theorem test_refused_runs :
    step (loaded [0x50000000, 0x00000000]) = .refused (.illegalWord .reservedOpcode) ∧
    step { loaded [] with cfg := { Config.default with stepUs := 0 } } = .refused .badConfig := ⟨rfl, rfl⟩

/-- The host's first step runs the word placed for it. -/
theorem test_with_fetch_word :
    step (State.withFetchWord .reset 32 0x60000000) =
      exec .reinit { State.reset with prog := [0x60000000] } := rfl

/-! ## Witnesses: a state and operands that meet each statement's hypotheses -/

/-- A configuration with WRAP below PERIOD_US. -/
def slow : Config := { Config.default with prescaler := 255 }

/-- The default configuration with a 32-bit product. -/
def product32 : Config := { Config.default with productWidth := .bits32 }

/-- The registers a TIMER step may write, changed. -/
def timerMoved (s : State) : State :=
  { s with ch0 := { s.ch0 with ctr := 9, wrapAct := 8, ccAct := 7 }, intRaw := 2#2 }

/-- The prescalers changed. -/
def otherPrescalers (s : State) : State := { s with ch0 := { s.ch0 with div := 64#8 } }

/-- Reset with one channel's registers. -/
def withChannel (c : ChannelRegs) : State := { State.reset with ch0 := c }

theorem witness_DecodeOfEncodeIsTheInstruction :
    (Instr.setdiv .ch1 1#8).wf = true ∧ (Instr.setdiv .ch0 255#8).wf = true := by decide

theorem witness_EncodeOfDecodeIsTheWord : decode 0x41000001 = .ok (.setdiv .ch1 1#8) := by decide

theorem witness_DecodingIsFittingATableRow :
    decode 0x400000FF = .ok (.setdiv .ch0 255#8) ∧ (⟨0x40000000, 0xFEFFFF00, true⟩ : OpcodeRow) ∈ opcodeTable ∧
      OpcodeRow.fits ⟨0x40000000, 0xFEFFFF00, true⟩ 0x41000001 = true := by decide

theorem witness_IllegalWordsAreRefusedByName :
    refusalOrder 0x30FF0000 = some .reservedBits ∧ refusalOrder 0x22000000 = some .badChannel ∧
    refusalOrder 0x40000100 = some .badImmediate ∧ refusalOrder 0xE0000000 = some .reservedOpcode ∧
    refusalOrder 0x90000002 = some .reservedBits ∧ refusalOrder 0x41000001 = none := by decide

theorem witness_OperandsAreTheWordsFields : decode 0xA000FFFF = .ok (.delay 0xFFFF#16) := by decide

theorem witness_ThresholdWithinWrapUpToThePeriod :
    Config.default.wf = true ∧ 20000 ≤ Config.default.periodUs := by decide

theorem witness_ThresholdExceedsWrapPastThePeriod :
    (Config.default.wf = true ∧ ExactProduct .default 20001 ∧ Config.default.periodUs < 20001 ∧
      Config.default.periodUs ≤ Config.default.wrapValue) ∧
    (slow.wf = true ∧ ExactProduct slow 20001 ∧ slow.wrapValue < slow.periodUs) :=
  ⟨⟨by decide, .inl rfl, by decide, by decide⟩, by decide, .inl rfl, by decide⟩

theorem witness_ThresholdIsMonotone :
    product32.wf = true ∧ ExactProduct product32 20000 ∧ product32.periodUs = 20000 ∧ 0 ≤ 20000 :=
  ⟨by decide, .inr (by decide), by decide, by decide⟩

theorem witness_ThirtyTwoBitDatapathIsExact :
    product32.wf = true ∧ product32.regWidth = 16 ∧ 65535 < 2 ^ 16 ∧ product32.productWidth = .bits32 := by decide

theorem witness_ChannelsAreIndependent :
    (∃ t, exec (.apply .ch1) .reset = .next t ∧ chanOf (.apply .ch1) ≠ some .ch0) ∧
    (∃ t, exec .tick .reset = .next t ∧ chanOf .tick ≠ some .ch1) :=
  ⟨⟨_, rfl, by decide⟩, ⟨_, rfl, by decide⟩⟩

theorem witness_NoStepDisablesAChannel :
    (∃ t, agentStep .timer (withChannel (running 5 2 5 2 4)) = some (.next t) ∧
      ((withChannel (running 5 2 5 2 4)).chan .ch0).en = true) ∧
    (∃ t, agentStep .host (loaded [0x40000040]) = some (.next t) ∧
      (t.chan .ch0).div ≠ ((loaded [0x40000040]).chan .ch0).div) :=
  ⟨⟨_, rfl, rfl⟩, ⟨_, rfl, by decide⟩⟩

theorem witness_OutputIsActiveForMinOfCompareAndWrap :
    ((withChannel (running 1 1 1 1 0)).chan .ch0).en = true ∧ ((withChannel (running 1 1 1 1 0)).chan .ch0).ctr = 0 ∧
    1 ≤ ((withChannel (running 1 1 1 1 0)).chan .ch0).wrapAct ∧
    ActiveSteady Config.default ((withChannel (running 1 1 1 1 0)).chan .ch0) ∧
    ActiveSteady { Config.default with updateMode := .immediate } (running 4 4 3 2 0) :=
  ⟨rfl, rfl, by decide, .inr ⟨rfl, rfl⟩, .inl rfl⟩

theorem witness_TickAdvancesTheSweep : State.reset.cfg.wf = true := by decide

theorem witness_ReinitWhileDecreasing :
    (sweepAt 1200#16 .decreasing false).cfg.wf = true ∧ (sweepAt 1200#16 .decreasing false).init = false ∧
    (sweepAt 1200#16 .decreasing false).dir = .decreasing := by decide

theorem witness_SweepFollowsTheClosedForm :
    DefaultSweep State.reset.cfg ∧ State.reset.init = false ∧ State.reset.dir = .increasing ∧ 1 ≤ 1 :=
  ⟨⟨rfl, rfl, rfl⟩, rfl, rfl, le_rfl⟩

theorem witness_DirectionFlipsEvery380Ticks :
    DefaultSweep (sweepAt 7#16 .increasing false).cfg ∧ (sweepAt 7#16 .increasing false).init = false ∧
    (sweepAt 7#16 .increasing false).dir = .increasing ∧ 1 ≤ 380 :=
  ⟨⟨rfl, rfl, rfl⟩, rfl, rfl, by decide⟩

theorem witness_SweepStaysInItsBounds :
    DefaultSweep State.reset.cfg ∧ State.reset.init = false ∧ State.reset.dir = .increasing ∧ 1 ≤ 381 :=
  ⟨⟨rfl, rfl, rfl⟩, rfl, rfl, by decide⟩

theorem witness_SweepIsAClosedMachine :
    (timerMoved .reset).cfg = State.reset.cfg ∧ (timerMoved .reset).duty = State.reset.duty ∧
    (timerMoved .reset).dir = State.reset.dir ∧ (timerMoved .reset).init = State.reset.init := by decide

/-- Disabled; counting, one below the wrap; at the wrap, under both modes; and a wrap of 0. -/
theorem witness_TimerStepAdvancesEveryEnabledChannel :
    ChannelRegs.reset.en = false ∧
    ((running 9 9 5 2 3).en = true ∧ (running 9 9 5 2 3).ctr + 1 < (running 9 9 5 2 3).wrapAct) ∧
    ((running 9 9 5 2 4).en = true ∧ (running 9 9 5 2 4).wrapAct ≤ (running 9 9 5 2 4).ctr + 1) ∧
    ((running 0 0 0 0 0).en = true ∧ (running 0 0 0 0 0).wrapAct ≤ (running 0 0 0 0 0).ctr + 1) ∧
    Config.default.updateMode = .atWrap ∧
    ({ Config.default with updateMode := .immediate } : Config).updateMode = .immediate := by decide

theorem witness_WrapEventsComeEveryWrapTicks :
    (((withChannel (running 3 2 3 2 0)).chan .ch0).en = true ∧ ((withChannel (running 3 2 3 2 0)).chan .ch0).ctr = 0 ∧
      1 ≤ ((withChannel (running 3 2 3 2 0)).chan .ch0).wrapAct ∧
      ActiveSteady Config.default ((withChannel (running 3 2 3 2 0)).chan .ch0)) ∧
    (((withChannel (running 0 0 0 0 7)).chan .ch0).en = true ∧
      ((withChannel (running 0 0 0 0 7)).chan .ch0).wrapAct ≤ 1) :=
  ⟨⟨rfl, rfl, by decide, .inr ⟨rfl, rfl⟩⟩, rfl, by decide⟩

theorem witness_EntryTakesTheInterrupt : pending.inHandler = false ∧ irq pending = true := by decide

theorem witness_PhaseZeroClearsBothConditions :
    (inPhase .ack).inHandler = true ∧ (inPhase .ack).isrPhase = .ack := by decide

theorem witness_PhaseOneIsATickWithoutHpc :
    (inPhase .tick).inHandler = true ∧ (inPhase .tick).isrPhase = .tick := by decide

theorem witness_PhasesTwoAndThreeApplyTheOutputs :
    ((inPhase .servo).inHandler = true ∧ (inPhase .servo).isrPhase = .servo) ∧
    ((inPhase .led).inHandler = true ∧ (inPhase .led).isrPhase = .led) := by decide

theorem witness_PhaseFourReturns :
    (inPhase .ret).inHandler = true ∧ (inPhase .ret).isrPhase = .ret ∧ irq (inPhase .ret) = true := by decide

theorem witness_HandlerRunsOneTickUnderAnyTimerSteps :
    (inPhase .ack).inHandler = true ∧ (inPhase .ack).isrPhase = .ack := by decide

/-- Two states that differ only in the prescalers, and so agree on every other register. -/
theorem otherPrescalers_sameBut (s : State) : SameBut [.div .ch0, .div .ch1] s (otherPrescalers s) :=
  ⟨fun r hr => by
    cases r <;> first
      | rfl
      | (rename_i ch; cases ch <;> first | rfl | simp at hr), rfl, rfl, rfl, rfl⟩

theorem timerMoved_sameBut (s : State) :
    SameBut [.ctr .ch0, .wrapAct .ch0, .ccAct .ch0, .ctr .ch1, .wrapAct .ch1, .ccAct .ch1, .intRaw] s
      (timerMoved s) :=
  ⟨fun r hr => by
    cases r <;> first
      | rfl
      | (simp at hr; done)
      | (rename_i ch; cases ch <;> first | rfl | simp at hr), rfl, rfl, rfl, rfl⟩

theorem witness_HandlerDoesNotReadWhatTheTimerWrites :
    (inPhase .servo).inHandler = true ∧
    SameBut [.ctr .ch0, .wrapAct .ch0, .ccAct .ch0, .ctr .ch1, .wrapAct .ch1, .ccAct .ch1, .intRaw] (inPhase .servo)
      (timerMoved (inPhase .servo)) ∧
    ∃ t, agentStep .isr (inPhase .servo) = some (.next t) :=
  ⟨rfl, timerMoved_sameBut _, _, rfl⟩

theorem witness_StepRunsTheDecodedInstruction :
    (loaded [0x60000000]).verdict = none ∧ (takeTurn (loaded [0x60000000])).1 = .host ∧
    (loaded [0x60000000]).fetch = some 0x60000000 ∧ decode 0x60000000 = .ok .reinit := ⟨rfl, rfl, rfl, by decide⟩

theorem witness_StepIsOneStepOfAnEnabledAgent :
    (∃ t, step (loaded [0x60000000]) = .next t) ∧
    ((loaded [0x60000000]).verdict = none ∧ enabled (loaded [0x60000000]) .host = true ∧
      (loaded [0x60000000]).sched = [.host]) ∧
    (pending.verdict = none ∧ enabled pending .isr = true ∧ enabled pending .timer = true) :=
  ⟨⟨_, rfl⟩, ⟨rfl, rfl, rfl⟩, rfl, rfl, rfl⟩

theorem witness_ProgramWithAnIllegalWordHasNoRun :
    (loaded [0x50000000, 0x22000000]).cfg.wf = true ∧ (0x22000000 : Word) ∈ (loaded [0x50000000, 0x22000000]).prog ∧
    decode 0x22000000 = .error .badChannel := by decide

theorem witness_AdmittedMachineNeverStops :
    (loaded [0x60000000]).cfg.wf = true ∧ ∀ w ∈ (loaded [0x60000000]).prog, ∃ i, decode w = .ok i :=
  ⟨by decide, fun w hw => ⟨.reinit, by rw [List.mem_singleton.1 hw]; decide⟩⟩

theorem witness_OnlyTheNamedWritersWrite :
    (∃ t, exec (.setduty .ch1 0#16) .reset = .next t) ∧ (∃ t, agentStep .timer .reset = some (.next t)) ∧
    (∃ t, agentStep .isr pending = some (.next t)) ∧ ∃ t, agentStep .isr (inPhase .led) = some (.next t) :=
  ⟨⟨_, rfl⟩, ⟨_, rfl⟩, ⟨_, rfl⟩, _, rfl⟩

theorem witness_HpcMovesOnlyWithTheHost :
    (∃ t, agentStep .host (loaded [0x60000000]) = some (.next t)) ∧
    (∃ t, agentStep .timer (loaded [0x60000000]) = some (.next t)) ∧
    (∃ t, step (loaded [0x60000000]) = .next t ∧ t.hpc = 1) ∧
    ∃ t, step { loaded [0x60000000] with hostIdle := true, sched := [.host, .timer] } = .next t ∧ t.hpc = 0 :=
  ⟨⟨_, rfl⟩, ⟨_, rfl⟩, ⟨_, rfl, rfl⟩, _, rfl, rfl⟩

theorem witness_HandlerSuspendsTheHost :
    ∃ t, (inPhase .tick).inHandler = true ∧ step { inPhase .tick with sched := [.isr] } = .next t :=
  ⟨_, rfl, rfl⟩

/-- A TIMER step, a phase before the last and the last. -/
theorem witness_HandlerPhasesRunInOrder :
    (∃ t, step { inPhase .tick with sched := [.timer] } = .next t ∧ t.isrPhase = .tick) ∧
    (∃ t, step { inPhase .tick with sched := [.isr] } = .next t ∧ t.isrPhase = .servo) ∧
    ∃ t, step { inPhase .ret with sched := [.isr] } = .next t ∧ t.inHandler = false :=
  ⟨⟨_, rfl, rfl⟩, ⟨_, rfl, rfl⟩, _, rfl, rfl⟩

theorem witness_NothingReadsThePrescalers :
    SameBut [.div .ch0, .div .ch1] .reset (otherPrescalers .reset) ∧ ∃ t, agentStep .timer .reset = some (.next t) :=
  ⟨otherPrescalers_sameBut _, _, rfl⟩

theorem witness_ResetLeavesTheBlockQuiet :
    Config.default.wf = true ∧ Reg.calcThr ≠ .duty ∧ Reg.calcThr ≠ .div .ch0 ∧ Reg.calcThr ≠ .div .ch1 := by decide

theorem witness_ResetMeetsTheInvariant : Config.default.wf = true := by decide

/-- A running channel and a descending sweep meet the invariant, and the state steps. -/
theorem witness_StepKeepsTheInvariant :
    MachineInv { sweepAt 2400#16 .decreasing true with ch0 := running 39062 976 39062 976 39061, sched := [.timer] } ∧
    ∃ t, step { sweepAt 2400#16 .decreasing true with
                ch0 := running 39062 976 39062 976 39061, sched := [.timer] } = .next t :=
  ⟨by decide, _, rfl⟩

theorem witness_RegistersFitTheirWidths :
    MachineInv (withChannel (running 65535 65535 65535 65535 65534)) ∧
    (Reg.wrap .ch0).width (withChannel (running 65535 65535 65535 65535 65534)).cfg = some 16 := by decide

theorem witness_DutyNeverWraps :
    (Config.default.wf = true ∧
      ∃ t, Host.Core.run Sys2Proof.core 1 { State.resetWith .default [0x50000000] with sched := [.host] } = .next t) ∧
    (MachineInv (sweepAt 2395#16 .increasing true) ∧ (sweepAt 2395#16 .increasing true).dir = .increasing) ∧
    (MachineInv (sweepAt 505#16 .decreasing true) ∧ (sweepAt 505#16 .decreasing true).dir = .decreasing) :=
  ⟨⟨by decide, _, rfl⟩, by decide, by decide⟩

theorem witness_StepKeepsDutyOnTheGrid :
    MachineInv State.reset ∧ State.reset.cfg.stepUs ∣ State.reset.cfg.upper - State.reset.cfg.lower ∧
    OnGrid State.reset ∧ ∃ t, step (loaded [0x50000000]) = .next t ∧ OnGrid (loaded [0x50000000]) :=
  ⟨by decide, by decide, ⟨⟨1, by decide⟩, by decide⟩, _, rfl, ⟨1, by decide⟩, by decide⟩

/-! ## A weakly fair run -/

/-- The agent of the `n`-th step of the witness run: HOST, the sequencer and TIMER by turns, and TIMER for one that has no
step. -/
def pick (n : Nat) (s : State) : Agent :=
  if n % 3 = 0 ∧ enabled s .host = true then .host else if n % 3 = 1 ∧ enabled s .isr = true then .isr else .timer

theorem pick_enabled (n : Nat) (s : State) : enabled s (pick n s) = true := by
  unfold pick
  split
  · next h => exact h.2
  · split
    · next h => exact h.2
    · rfl

/-- The state after an agent's step. -/
def advance (a : Agent) (s : State) : State :=
  match agentStep a s with
  | some (.next t) => t
  | _ => s

/-- The states of the witness run from `s`. -/
def runStates (s : State) : Nat → State
  | 0 => s
  | n + 1 => advance (pick n (runStates s n)) (runStates s n)

theorem runStates_moves (s : State) (h : s.verdict = none) (n : Nat) : (runStates s n).verdict = none ∧
    agentStep (pick n (runStates s n)) (runStates s n) = some (.next (runStates s (n + 1))) := by
  have key : ∀ n, (runStates s n).verdict = none →
      agentStep (pick n (runStates s n)) (runStates s n) = some (.next (runStates s (n + 1))) := fun n hv => by
    obtain ⟨t, ht⟩ := agentStep_next hv (pick_enabled n _)
    rw [ht, runStates, advance, ht]
  induction n with
  | zero => exact ⟨h, key 0 h⟩
  | succ n ih =>
    have hv := (agentStep_sameRun ih.2).verdict.trans ih.1
    exact ⟨hv, key _ hv⟩

/-- The witness run from any admitted state. -/
def witnessRun (s : State) (h : s.verdict = none) : Run where
  states := runStates s
  agents n := pick n (runStates s n)
  admitted := h
  moves n := (runStates_moves s h n).2

theorem witnessRun_weaklyFair (s : State) (h : s.verdict = none) : (witnessRun s h).WeaklyFair := by
  intro a n he
  cases a with
  | host =>
    refine ⟨3 * n, by omega, ?_⟩
    have := he (3 * n) (by omega)
    simp only [witnessRun] at this ⊢
    unfold pick
    rw [if_pos ⟨by omega, this⟩]
  | timer =>
    refine ⟨3 * n + 2, by omega, ?_⟩
    simp only [witnessRun]
    unfold pick
    rw [if_neg (by omega), if_neg (by omega)]
  | isr =>
    refine ⟨3 * n + 1, by omega, ?_⟩
    have := he (3 * n + 1) (by omega)
    simp only [witnessRun] at this ⊢
    unfold pick
    rw [if_neg (by omega), if_pos ⟨by omega, this⟩]

theorem witness_EntriesNeverExceedSetConditions :
    hasChan pending.intRaw .ch0 = true ∧
    ∃ r : Run, (r.states 0).intRaw = 0#2 ∧ (r.states 0).inHandler = false := ⟨rfl, witnessRun .reset rfl, rfl, rfl⟩

theorem witness_StartedHandlerCompletes :
    ∃ r : Run, r.WeaklyFair ∧ (r.states 0).inHandler = true :=
  ⟨witnessRun (inPhase .ack) rfl, witnessRun_weaklyFair _ _, rfl⟩

/-- The line high with no host step left, and, in another run, with a host operation that takes it down first. -/
theorem witness_RaisedLineIsServed :
    (∃ r : Run, r.WeaklyFair ∧ (r.states 0).inHandler = false ∧ irq (r.states 0) = true ∧
      (r.states 0).prog.length ≤ (r.states 0).hpc) ∧
    ∃ r : Run, r.WeaklyFair ∧ (r.states 0).inHandler = false ∧ irq (r.states 0) = true ∧
      r.agents 0 = .host ∧ irq (r.states 1) = false :=
  ⟨⟨witnessRun pending rfl, witnessRun_weaklyFair _ _, rfl, rfl, Nat.le_refl 0⟩,
    witnessRun { pending with prog := [0x90000000] } rfl, witnessRun_weaklyFair _ _, rfl, rfl, rfl, rfl⟩

/-- The line is raised by a wrap at step 2, taken down by IRQEN 0 at step 3 and raised by IRQEN 1 at step 6; step 7 is the
entry. -/
def raced : State :=
  { pending with intRaw := 0#2, ch0 := running 9 9 9 9 7, prog := [0xA0000000, 0x90000000, 0x90000001] }

/-- The raise that the host takes down causes no entry; the one after it does (R169, entry 11). -/
theorem test_causes_entry :
    (witnessRun raced rfl).raisesAt 2 = true ∧ (witnessRun raced rfl).entryAt 7 = true ∧
    ¬(witnessRun raced rfl).causesEntry 2 7 ∧ (witnessRun raced rfl).causesEntry 6 7 := by
  refine ⟨rfl, rfl, fun h => ?_, by decide, rfl, rfl, fun i h1 h2 => by omega, fun i h1 h2 => ?_⟩
  · exact absurd (h.2.2.2.2 4 (by decide) (by decide)) (by decide)
  · have : i = 7 := by omega
    subst this; rfl

end Sys2Proof.Tests
end

/-! # Scope: the machine's invariant, refused configurations, the sweep's range

What each part of MachineInv needs of the shared operations, said once per operation; the three statements are
assembled from those. -/

namespace Sys2Proof

/-! ## The checks of the decoder, inverted (30_encoding.md R70) -/

theorem zeroZ_eq_ok {w : Word} {k : Except IllegalReason Instr} {i : Instr} :
    zeroZ w k = .ok i ↔ zField w = 0#8 ∧ k = .ok i := by
  unfold zeroZ; split <;> simp [*]

theorem zeroCh_eq_ok {w : Word} {k : Except IllegalReason Instr} {i : Instr} :
    zeroCh w k = .ok i ↔ chField w = 0#4 ∧ k = .ok i := by
  unfold zeroCh; split <;> simp [*]

theorem zeroImm_eq_ok {w : Word} {k : Except IllegalReason Instr} {i : Instr} :
    zeroImm w k = .ok i ↔ immField w = 0#16 ∧ k = .ok i := by
  unfold zeroImm; split <;> simp [*]

theorem readCh_eq_ok {w : Word} {k : Channel → Except IllegalReason Instr} {i : Instr} :
    readCh w k = .ok i ↔ ∃ ch : Channel, chField w = ch.field ∧ k ch = .ok i := by
  unfold readCh
  constructor
  · split
    · exact fun hk => ⟨.ch0, ‹_›, hk⟩
    · split
      · exact fun hk => ⟨.ch1, ‹_›, hk⟩
      · exact nofun
  · rintro ⟨ch, hch, hk⟩
    cases ch <;> simp [hch, Channel.field, hk]

theorem readChanSet_eq_ok {w : Word} {k : BitVec 2 → Except IllegalReason Instr} {i : Instr} :
    readChanSet w k = .ok i ↔
      (immField w).extractLsb' 2 14 = 0#14 ∧ k ((immField w).extractLsb' 0 2) = .ok i := by
  unfold readChanSet; split <;> simp [*]

theorem readFlag_eq_ok {w : Word} {k : Bool → Except IllegalReason Instr} {i : Instr} :
    readFlag w k = .ok i ↔
      (immField w).extractLsb' 1 15 = 0#15 ∧ k ((immField w).getLsbD 0) = .ok i := by
  unfold readFlag; split <;> simp [*]

theorem readDivisor_eq_ok {w : Word} {k : BitVec 8 → Except IllegalReason Instr} {i : Instr} :
    readDivisor w k = .ok i ↔
      ((immField w).extractLsb' 8 8 = 0#8 ∧ immField w ≠ 0#16) ∧ k ((immField w).extractLsb' 0 8) = .ok i := by
  unfold readDivisor; split <;> simp [*]

/-- A word with divisor 0 is illegal (R74): of the decoder's arms only SETDIV's answers a SETDIV, and its check on the
immediate shuts 0 out. -/
theorem divisor_ne_zero_of_decode {w : Word} {ch : Channel} {d : BitVec 8} (h : decode w = .ok (.setdiv ch d)) :
    d ≠ 0#8 := by
  unfold decode at h
  split at h <;>
    simp only [zeroZ_eq_ok, zeroCh_eq_ok, zeroImm_eq_ok, readCh_eq_ok, readChanSet_eq_ok, readFlag_eq_ok,
      readDivisor_eq_ok, Except.ok.injEq, reduceCtorEq, and_false, exists_false, Instr.setdiv.injEq] at h
  obtain ⟨-, _, -, ⟨hhigh, hne⟩, -, rfl⟩ := h
  exact (divisor_of_imm _ hhigh).2 hne

/-! ## The calculator's threshold (40_calculator.md R93, R95) -/

/-- A threshold is at most the product it is divided from. -/
theorem Config.calcThr_le (c : Config) (p : Nat) : c.calcThr p ≤ c.wrapValue * p :=
  (Nat.div_le_self _ _).trans (c.product_le p)

/-- A 16-bit argument and 16-bit registers keep the threshold below 2^32, under either product width. -/
theorem Config.calcThr_lt (c : Config) (hwf : c.wf = true) (hr : c.regWidth = 16) {p : Nat} (hp : p < 2 ^ 16) :
    c.calcThr p < 2 ^ 32 := by
  have hw : c.wrapValue < 2 ^ 16 := hr ▸ c.wrapValue_lt hwf
  calc c.calcThr p ≤ c.wrapValue * p := c.calcThr_le p
    _ < 2 ^ 16 * 2 ^ 16 := Nat.mul_lt_mul'' hw hp
    _ = 2 ^ 32 := by norm_num

namespace Machine

open Sys2Proof.Stated Sys2Proof.Safety

/-! ## The verdict and step -/

/-- Where the verdict is clear the machine steps: the agent whose turn it is has a step. -/
theorem step_next_of_verdict {s : State} (h : s.verdict = none) : ∃ t, step s = .next t := by
  obtain ⟨l, n, hs⟩ := takeTurn_state s
  have he : enabled (takeTurn s).2 (takeTurn s).1 = true := by rw [hs, enabled_sched]; exact takeTurn_enabled s
  have hv : (takeTurn s).2.verdict = none := by rw [hs]; exact h
  obtain ⟨t, ht⟩ := agentStep_next hv he
  exact ⟨t, by simp only [step, h, turnStep, ht]⟩

/-- A step refuses exactly what the verdict names (30_encoding.md R77). -/
theorem step_refused_iff (s : State) (r : Refusal) : step s = .refused r ↔ s.verdict = some r := by
  cases hv : s.verdict with
  | none =>
    obtain ⟨t, ht⟩ := step_next_of_verdict hv
    simp [ht]
  | some r' => simp [step, hv]

/-- The verdict names the configuration exactly where it is not well formed, whatever the program (entry 7). -/
theorem verdict_eq_badConfig (s : State) : s.verdict = some .badConfig ↔ ¬s.cfg.wf = true := by
  unfold State.verdict
  split <;> simp [*]

/-- No step of the machine writes the configuration. -/
theorem step_cfg {s t : State} (h : step s = .next t) : t.cfg = s.cfg := by
  obtain ⟨l, n, hs⟩ := takeTurn_state s
  obtain ⟨hcfg, -⟩ := agentStep_sameRun (step_cases h).2
  rw [hcfg, hs]

/-! ## The sweep transition on naturals (42_sweep.md R115 to R119) -/

/-- The value a tick emits. -/
theorem tick_servoOut_toNat (s : State) (hwf : s.cfg.wf = true) : s.tick.servoOut.toNat = emitted s := by
  rw [State.tick_servoOut, emitted]
  split
  · rfl
  · exact lowerDuty_toNat _ hwf

/-- The square a tick emits. -/
theorem tick_ledOut_toNat (s : State) : s.tick.ledOut.toNat = s.tick.servoOut.toNat * s.tick.servoOut.toNat := by
  rw [State.tick_ledOut, square_toNat]

/-- While Increasing the emitted value is in the range of the direction, below `UPPER`: so is `LOWER`, the first one. -/
theorem emitted_of_increasing {s : State} (hwf : s.cfg.wf = true) (hs : SweepFits s) (hd : s.dir = .increasing) :
    s.cfg.lower ≤ emitted s + s.cfg.stepUs ∧ emitted s < s.cfg.upper := by
  obtain ⟨-, -, -, -, -, ⟨-, hlu⟩, -⟩ := s.cfg.wf_iff.1 hwf
  unfold emitted
  split
  · exact hs.1 hd
  · omega

/-- While Decreasing the emitted value is not below `LOWER`, which is at least `STEP`. -/
theorem emitted_of_decreasing {s : State} (hwf : s.cfg.wf = true) (hs : SweepFits s) (hd : s.dir = .decreasing) :
    s.cfg.lower ≤ emitted s ∧ emitted s < s.cfg.upper + s.cfg.stepUs := by
  obtain ⟨-, -, -, -, -, ⟨-, hlu⟩, -⟩ := s.cfg.wf_iff.1 hwf
  unfold emitted
  split
  · exact ⟨(hs.2 hd).1.le, (hs.2 hd).2⟩
  · omega

/-- The add does not wrap (R127): below `UPPER` there is room for `STEP`. -/
theorem tick_duty_of_increasing {s : State} (hwf : s.cfg.wf = true) (hs : SweepFits s) (hd : s.dir = .increasing) :
    s.tick.duty.toNat = emitted s + s.cfg.stepUs := by
  obtain ⟨-, -, -, -, -, -, htop⟩ := s.cfg.wf_iff.1 hwf
  have hem := (emitted_of_increasing hwf hs hd).2
  rw [(s.tick_of_increasing hd).1, BitVec.toNat_add, tick_servoOut_toNat s hwf, stepDuty_toNat _ hwf]
  exact Nat.mod_eq_of_lt (by omega)

/-- The subtract does not wrap (R127): `STEP` is at most `LOWER`. -/
theorem tick_duty_of_decreasing {s : State} (hwf : s.cfg.wf = true) (hs : SweepFits s) (hd : s.dir = .decreasing) :
    s.tick.duty.toNat + s.cfg.stepUs = emitted s := by
  obtain ⟨-, -, -, -, -, ⟨hsl, -⟩, -⟩ := s.cfg.wf_iff.1 hwf
  have hem := (emitted_of_decreasing hwf hs hd).1
  have hle : stepDuty s.cfg ≤ s.tick.servoOut := by
    rw [BitVec.le_def, tick_servoOut_toNat s hwf, stepDuty_toNat _ hwf]; omega
  rw [(s.tick_of_decreasing hd).1, BitVec.toNat_sub_of_le hle, tick_servoOut_toNat s hwf, stepDuty_toNat _ hwf]
  omega

/-- The direction after a tick while Increasing, from the value advanced to. -/
theorem tick_dir_of_increasing {s : State} (hd : s.dir = .increasing) :
    s.tick.dir = if s.cfg.upper ≤ s.tick.duty.toNat then .decreasing else .increasing := by
  obtain ⟨hduty, hdir⟩ := s.tick_of_increasing hd
  rw [hdir, hduty, dirAfterAdd]

/-- The direction after a tick while Decreasing, from the value advanced to. -/
theorem tick_dir_of_decreasing {s : State} (hd : s.dir = .decreasing) :
    s.tick.dir = if s.tick.duty.toNat ≤ s.cfg.lower then .increasing else .decreasing := by
  obtain ⟨hduty, hdir⟩ := s.tick_of_decreasing hd
  rw [hdir, hduty, dirAfterSub]

end Machine

namespace Safety

open Sys2Proof.Machine Sys2Proof.Stated

/-! ## A channel's registers fit -/

/-- The channel write narrows the pair; an active wrap it changes under `AT_WRAP` comes with a count of 0 (R101 to
R103). -/
theorem ChannelFits.apply {cfg : Config} {c : ChannelRegs} (h : ChannelFits cfg c) (w t : Nat) :
    ChannelFits cfg (c.apply cfg w t) := by
  obtain ⟨-, -, hwa, hca, hctr, hdiv, hat⟩ := h
  have hw := cfg.narrowReg_lt w
  have ht := cfg.narrowReg_lt t
  have hpos := Nat.two_pow_pos cfg.regWidth
  cases hen : c.en with
  | false =>
    rw [c.apply_of_disabled cfg w t hen]
    exact ⟨hw, ht, hw, ht, hpos, hdiv, fun _ _ => by simp⟩
  | true =>
    cases hm : cfg.updateMode with
    | immediate =>
      rw [c.apply_of_immediate cfg w t hen hm]
      exact ⟨hw, ht, hw, ht, hctr, hdiv, fun h => by simp [hm] at h⟩
    | atWrap =>
      rw [c.apply_of_atWrap cfg w t hen hm]
      exact ⟨hw, ht, hwa, hca, hctr, hdiv, hat⟩

/-- A tick counts on only below the active wrap, and a wrap event loads programmed values with a count of 0 (R150,
R151). -/
theorem ChannelFits.timerTick {cfg : Config} {c : ChannelRegs} (h : ChannelFits cfg c) :
    ChannelFits cfg (c.timerTick cfg.updateMode) := by
  obtain ⟨hw, hc, hwa, hca, hctr, hdiv, hat⟩ := h
  have hpos := Nat.two_pow_pos cfg.regWidth
  rcases c.timerTick_cases cfg.updateMode with
    ⟨-, heq⟩ | ⟨-, hlt, heq⟩ | ⟨-, -, ⟨-, heq⟩ | ⟨-, heq⟩⟩ <;> rw [heq]
  · exact ⟨hw, hc, hwa, hca, hctr, hdiv, hat⟩
  · exact ⟨hw, hc, hwa, hca, hlt.trans hwa, hdiv, fun _ _ => lt_max_of_lt_right hlt⟩
  · exact ⟨hw, hc, hw, hc, hpos, hdiv, fun _ _ => by simp⟩
  · exact ⟨hw, hc, hwa, hca, hpos, hdiv, fun _ _ => by simp⟩

/-- A channel at reset fits. -/
theorem channelFits_reset (cfg : Config) : ChannelFits cfg .reset := by
  simp [ChannelFits, ChannelRegs.reset]

/-! ## The sweep's range -/

/-- A tick keeps the range: it flips at a bound on the value advanced to, which is less than `STEP` past it (R119,
R127). -/
theorem SweepFits.tick {s : State} (hs : SweepFits s) (hwf : s.cfg.wf = true) : SweepFits s.tick := by
  obtain ⟨-, -, -, -, hstep, ⟨hsl, hlu⟩, -⟩ := s.cfg.wf_iff.1 hwf
  unfold SweepFits
  rw [State.tick_cfg]
  cases hd : s.dir with
  | increasing =>
    have hem := emitted_of_increasing hwf hs hd
    have hduty := tick_duty_of_increasing hwf hs hd
    rw [tick_dir_of_increasing hd]
    split
    · exact ⟨nofun, fun _ => ⟨by omega, by omega⟩⟩
    · exact ⟨fun _ => ⟨by omega, by omega⟩, nofun⟩
  | decreasing =>
    have hem := emitted_of_decreasing hwf hs hd
    have hduty := tick_duty_of_decreasing hwf hs hd
    rw [tick_dir_of_decreasing hd]
    split
    · exact ⟨fun _ => ⟨by omega, by omega⟩, nofun⟩
    · exact ⟨nofun, fun _ => ⟨by omega, by omega⟩⟩

/-- The range of either direction lies in R127's. -/
theorem SweepFits.bounds {s : State} (hs : SweepFits s) (hwf : s.cfg.wf = true) :
    s.cfg.lower ≤ s.duty.toNat + s.cfg.stepUs ∧ s.duty.toNat ≤ s.cfg.upper + s.cfg.stepUs - 1 := by
  obtain ⟨-, -, -, -, hstep, -⟩ := s.cfg.wf_iff.1 hwf
  cases hd : s.dir with
  | increasing => have := hs.1 hd; omega
  | decreasing => have := hs.2 hd; omega

/-! ## The invariant, operation by operation -/

/-- Reset meets the invariant: `DUTY` is `LOWER`, the square of 0 is 0 (70_reset_and_hazards.md R190). -/
theorem machineInv_resetWith {c : Config} (hwf : c.wf = true) (p : List Word) : MachineInv (State.resetWith c p) := by
  have hsweep : SweepFits (State.resetWith c p) := by
    obtain ⟨-, -, -, -, -, ⟨-, hlu⟩, -⟩ := c.wf_iff.1 hwf
    have hduty : (State.resetWith c p).duty.toNat = c.lower := lowerDuty_toNat c hwf
    refine ⟨fun _ => ?_, nofun⟩
    rw [hduty]
    exact ⟨Nat.le_add_right _ _, hlu⟩
  have hhandler : HandlerFits (State.resetWith c p) := ⟨fun _ => rfl, fun h => by simp [State.resetWith] at h⟩
  exact ⟨hwf, channelFits_reset c, channelFits_reset c, hsweep, rfl,
    fun _ _ => ⟨Nat.two_pow_pos 32, Nat.two_pow_pos 32⟩, hhandler, Nat.zero_le _⟩

theorem MachineInv.chan {s : State} (h : MachineInv s) (ch : Channel) : ChannelFits s.cfg (s.chan ch) := by
  obtain ⟨-, h0, h1, -⟩ := h
  cases ch
  · exact h0
  · exact h1

theorem MachineInv.setChan {s : State} (h : MachineInv s) (ch : Channel) {c : ChannelRegs}
    (hc : ChannelFits s.cfg c) : MachineInv (s.setChan ch c) := by
  obtain ⟨hwf, h0, h1, hrest⟩ := h
  cases ch
  · exact ⟨hwf, hc, h1, hrest⟩
  · exact ⟨hwf, h0, hc, hrest⟩

theorem MachineInv.setDiv {s : State} (h : MachineInv s) (ch : Channel) {d : BitVec 8} (hd : d ≠ 0#8) :
    MachineInv (s.setChan ch { s.chan ch with div := d }) := by
  obtain ⟨hw, hc, hwa, hca, hctr, -, hat⟩ := h.chan ch
  exact h.setChan ch ⟨hw, hc, hwa, hca, hctr, hd, hat⟩

/-- The host advances where a word is left (R38). -/
theorem MachineInv.hostNext {s : State} (h : MachineInv s) (hl : s.hpc < s.prog.length) : MachineInv s.hostNext := by
  obtain ⟨hwf, h0, h1, hsw, hled, hlat, hh, -⟩ := h
  exact ⟨hwf, h0, h1, hsw, hled, hlat, hh, hl⟩

/-- A 16-bit immediate is within the latches' bound (41_channel.md R106, R107). -/
theorem zext16_lt (imm : BitVec 16) : zext16 imm < 2 ^ 32 :=
  imm.isLt.trans (by norm_num)

/-- New latches, where they are within their bound. -/
theorem MachineInv.setLatches {s : State} (h : MachineInv s) {w t : Nat}
    (hlat : LatchesFit { s with calcWrap := w, calcThr := t }) : MachineInv { s with calcWrap := w, calcThr := t } := by
  obtain ⟨hwf, h0, h1, hsw, hled, -, hh, hpc⟩ := h
  exact ⟨hwf, h0, h1, hsw, hled, hlat, hh, hpc⟩

/-- The calculator, where a 16-bit path hands it a 16-bit argument (40_calculator.md R92, R95). -/
theorem MachineInv.latchCalc {s : State} (h : MachineInv s) {p : Nat}
    (hp : s.cfg.pathWidth = .bits16 → p < 2 ^ 16) : MachineInv (s.latchCalc p) := by
  have ⟨hwf, _⟩ := h
  refine h.setLatches fun hr hpath => ⟨?_, s.cfg.calcThr_lt hwf hr (hp hpath)⟩
  have hw : s.cfg.wrapValue < 2 ^ 16 := hr ▸ s.cfg.wrapValue_lt hwf
  exact hw.trans (by norm_num)

theorem MachineInv.applyLatched {s : State} (h : MachineInv s) (ch : Channel) : MachineInv (s.applyLatched ch) :=
  h.setChan ch ((h.chan ch).apply _ _)

theorem MachineInv.setduty {s : State} (h : MachineInv s) (ch : Channel) (v : Nat) : MachineInv (s.setduty ch v) :=
  (h.latchCalc (s.cfg.narrowP_lt v)).applyLatched ch

theorem MachineInv.tick {s : State} (h : MachineInv s) : MachineInv s.tick := by
  obtain ⟨hwf, h0, h1, hsw, -, hlat, ⟨hout, -⟩, hpc⟩ := h
  exact ⟨by simpa using hwf, by simpa using h0, by simpa using h1, hsw.tick hwf, tick_ledOut_toNat s,
    by simpa [LatchesFit] using hlat, ⟨by simpa using hout, fun _ => s.tick_init⟩, by simpa using hpc⟩

/-- REINIT, which a host runs only outside the handler, where the next phase is 0 (60_exceptions.md R157). -/
theorem MachineInv.reinit {s : State} (h : MachineInv s) (hin : s.inHandler = false) :
    MachineInv { s with init := false } := by
  obtain ⟨hwf, h0, h1, hsw, hled, hlat, ⟨hout, -⟩, hpc⟩ := h
  exact ⟨hwf, h0, h1, hsw, hled, hlat, ⟨hout, fun hp => by simp [hout hin] at hp⟩, hpc⟩

theorem MachineInv.timerStep {s : State} (h : MachineInv s) : MachineInv s.timerStep := by
  obtain ⟨hwf, h0, h1, hrest⟩ := h
  exact ⟨hwf, h0.timerTick, h1.timerTick, hrest⟩

/-- The handler at a phase: in it, and past its phase 1 only with the sweep initialized. -/
theorem MachineInv.toPhase {s : State} (h : MachineInv s) (hin : s.inHandler = true) {p : IsrPhase}
    (hp : p = .servo ∨ p = .led ∨ p = .ret → s.init = true) : MachineInv (s.toPhase p) := by
  obtain ⟨hwf, h0, h1, hsw, hled, hlat, -, hpc⟩ := h
  exact ⟨hwf, h0, h1, hsw, hled, hlat, ⟨fun hout => by simp [hin] at hout, hp⟩, hpc⟩

/-- The duty-setting path in the handler, after its sweep phase (60_exceptions.md R163, R164). -/
theorem MachineInv.setduty_toPhase {s : State} (h : MachineInv s) (hin : s.inHandler = true) (hinit : s.init = true)
    (ch : Channel) (v : Nat) (p : IsrPhase) : MachineInv ((s.setduty ch v).toPhase p) :=
  (h.setduty ch v).toPhase (by simpa using hin) fun _ => by simpa using hinit

/-- Entry and return both leave phase 0 as the next one (R156, R165). -/
theorem MachineInv.toAck {s : State} (h : MachineInv s) (b : Bool) :
    MachineInv { s with inHandler := b, isrPhase := .ack } := by
  obtain ⟨hwf, h0, h1, hsw, hled, hlat, -, hpc⟩ := h
  exact ⟨hwf, h0, h1, hsw, hled, hlat, ⟨fun _ => rfl, fun hp => by simp at hp⟩, hpc⟩

/-- A phase of the handler (R160): phase 1 initializes the sweep, the phases after it leave INIT alone. -/
theorem MachineInv.isrStep {s : State} (h : MachineInv s) (hin : s.inHandler = true) : MachineInv s.isrStep := by
  have ⟨_, _, _, _, _, _, ⟨_, hinit⟩, _⟩ := h
  cases hp : s.isrPhase with
  | ack =>
    have hack : MachineInv s.isrAck := h
    exact s.isrStep_of_ack hp ▸ hack.toPhase hin (by simp)
  | tick => exact s.isrStep_of_tick hp ▸ h.tick.toPhase (by simpa using hin) fun _ => s.tick_init
  | servo => exact s.isrStep_of_servo hp ▸ h.setduty_toPhase hin (hinit (.inl hp)) _ _ _
  | led => exact s.isrStep_of_led hp ▸ h.setduty_toPhase hin (hinit (.inr (.inl hp))) _ _ _
  | ret => exact s.isrStep_of_ret hp ▸ h.toAck false

/-- An operation of the host, which runs outside the handler and has a decoded word. -/
theorem MachineInv.of_exec {s t : State} {w : Word} {i : Instr} (h : MachineInv s) (hin : s.inHandler = false)
    (hl : s.hpc < s.prog.length) (hd : decode w = .ok i) (ht : exec i s = .next t) : MachineInv t := by
  cases i with
  | calculate imm => cases ht; exact (h.latchCalc fun _ => imm.isLt).hostNext hl
  | apply ch => cases ht; exact (h.applyLatched ch).hostNext (by simpa using hl)
  | setduty ch imm => cases ht; exact (h.setduty ch _).hostNext (by simpa using hl)
  | setdiv ch d => cases ht; exact (h.setDiv ch (divisor_ne_zero_of_decode hd)).hostNext (by simpa using hl)
  | tick => cases ht; exact h.tick.hostNext (by simpa using hl)
  | reinit => cases ht; exact (h.reinit hin).hostNext hl
  | ack chans => cases ht; exact h.hostNext hl
  | irqmask chans => cases ht; exact h.hostNext hl
  | irqen on => cases ht; exact h.hostNext hl
  | delay imm => cases ht; exact h.hostNext hl
  | idle => cases ht; exact h.hostNext hl
  | ldwrap imm =>
    have ⟨_, _, _, _, _, hlat, _⟩ := h
    cases ht
    have hset := h.setLatches (w := zext16 imm) (t := s.calcThr) fun hr hpath => ⟨zext16_lt imm, (hlat hr hpath).2⟩
    exact hset.hostNext hl
  | ldthr imm =>
    have ⟨_, _, _, _, _, hlat, _⟩ := h
    cases ht
    have hset := h.setLatches (w := s.calcWrap) (t := zext16 imm) fun hr hpath => ⟨(hlat hr hpath).1, zext16_lt imm⟩
    exact hset.hostNext hl

/-- Every step keeps the invariant; taking the turn itself changes the schedule only. -/
theorem MachineInv.of_step {s t : State} (h : MachineInv s) (hs : step s = .next t) : MachineInv t := by
  obtain ⟨-, l, n, s', rfl, hcase⟩ := step_next_cases hs
  have h' : MachineInv { s with sched := l, draws := n } := h
  rcases hcase with ⟨hin, -, hl, w, i, -, hd, he⟩ | rfl | ⟨hin, rfl⟩ | ⟨-, -, rfl⟩
  · exact h'.of_exec hin hl hd he
  · exact h'.timerStep
  · exact h'.isrStep hin
  · exact h'.toAck true

/-! ## Runs of step -/

/-- A run of one step more is a step that answers a next state, then the run from there. -/
theorem run_succ_eq_next {M : Host.Core} {n : Nat} {s t : M.State} (h : M.run (n + 1) s = .next t) :
    ∃ s', M.step s = .next s' ∧ M.run n s' = .next t := by
  rw [Host.Core.run] at h
  cases he : M.step s with
  | next s' => exact ⟨s', rfl, by simpa only [he] using h⟩
  | fault r => simp [he] at h
  | refused r => simp [he] at h

/-- What holds at the start and is kept by every step holds after any number of steps. -/
theorem run_keeps {M : Host.Core} {P : M.State → Prop} (hstep : ∀ s t, P s → M.step s = .next t → P t) {n : Nat}
    {s t : M.State} (hs : P s) (h : M.run n s = .next t) : P t := by
  induction n generalizing s with
  | zero => cases h; exact hs
  | succ n ih =>
    obtain ⟨s', he, hrun⟩ := run_succ_eq_next h
    exact ih (hstep s s' hs he) hrun

/-- Every run from reset keeps the invariant and the configuration, whatever the program and the schedule. -/
theorem run_from_reset {c : Config} {p : List Word} {sched : List Agent} {n : Nat} {t : State} (hwf : c.wf = true)
    (h : Host.Core.run Sys2Proof.core n { State.resetWith c p with sched := sched } = .next t) :
    MachineInv t ∧ t.cfg = c := by
  have hinit : MachineInv { State.resetWith c p with sched := sched } := machineInv_resetWith hwf p
  exact run_keeps (M := Sys2Proof.core) (P := fun s => MachineInv s ∧ s.cfg = c)
    (fun _ _ ⟨hinv, hcfg⟩ hst => ⟨hinv.of_step hst, (step_cfg hst).trans hcfg⟩) ⟨hinit, rfl⟩ h

/-! ## The statements -/

/-- Settles O54: the invariant is kept by each of the three agents' steps, operation by operation. -/
theorem stepKeepsTheInvariant : Obligations.StepKeepsTheInvariant :=
  fun _ _ h hs => h.of_step hs

/-- Settles O45: a step refuses what the verdict names, and the verdict looks at the configuration first. -/
theorem badConfigurationHasNoRun : Obligations.BadConfigurationHasNoRun := by
  intro s
  have hfit : s.cfg.wrapValue ≤ 2 ^ s.cfg.regWidth - 1 ↔ s.cfg.wrapValue < 2 ^ s.cfg.regWidth :=
    Nat.le_sub_one_iff_lt (Nat.two_pow_pos _)
  rw [step_refused_iff, verdict_eq_badConfig, not_iff_not, Config.wf_iff, hfit, Config.wrapValue]
  simp only [and_assoc, Nat.reducePow, Nat.reduceSub]

/-- Settles O56: every state of a run from reset meets the invariant, whose sweep range leaves room for `STEP` on both
sides. -/
theorem dutyNeverWraps : Obligations.DutyNeverWraps := by
  refine ⟨fun c p sched n t hwf hrun => ?_, fun s h => ?_⟩
  · obtain ⟨⟨hwft, -, -, hsw, -⟩, rfl⟩ := run_from_reset hwf hrun
    obtain ⟨hlo, hhi⟩ := hsw.bounds hwft
    exact ⟨hlo, hhi, t.duty.isLt⟩
  · obtain ⟨hwf, -, -, hsw, -⟩ := h
    exact ⟨tick_duty_of_increasing hwf hsw, tick_duty_of_decreasing hwf hsw⟩

end Safety

end Sys2Proof

/-! # Scope: who writes what, the channels' enables and prescalers, a period's output, the grid

The frame of every agent's step, from R22's "written by" column; most statements here say of one register or one
predicate that no step but a named one touches it, and are read off that frame. -/

namespace Sys2Proof

namespace Machine

open Sys2Proof.Stated Sys2Proof.Safety

/-! ## The frame of an operation (10_state.md R21, R22) -/

theorem State.chan_setChan (s : State) (ch ch' : Channel) (c : ChannelRegs) :
    (s.setChan ch c).chan ch' = if ch' = ch then c else s.chan ch' := by
  split
  · next h => rw [h, State.chan_setChan_same]
  · next h => exact s.chan_setChan_of_ne _ _ _ h

/-- A prescaler write touches that prescaler only (41_channel.md R105). -/
theorem State.setDiv_sameBut (s : State) (ch : Channel) (d : BitVec 8) :
    SameBut [.div ch] s (s.setChan ch { s.chan ch with div := d }) := by
  refine ⟨fun r hr => ?_, by simp [SameRun]⟩
  cases r with
  | wrap ch' | cc ch' | en ch' | div ch' | wrapAct ch' | ccAct ch' | ctr ch' =>
    simp only [State.read, State.chan_setChan]; split <;> simp_all
  | _ => simp [State.read]

/-- An operation writes its row's registers only. -/
theorem exec_sameBut {i : Instr} {s t : State} (h : exec i s = .next t) : SameBut (instrWrites i) s t := by
  cases i with
  | calculate imm => cases h; exact (s.latchCalc_sameBut _).comp (State.hostNext_sameBut _)
  | apply ch =>
    cases h
    exact ((s.applyLatched_sameBut ch).comp (State.hostNext_sameBut _)).mono fun r hr => by
      simpa [instrWrites, or_comm] using hr
  | setduty ch imm =>
    cases h
    exact ((s.setduty_sameBut ch _).comp (State.hostNext_sameBut _)).mono fun r hr => by
      simpa [instrWrites, or_assoc, or_comm] using hr
  | setdiv ch d => cases h; exact (s.setDiv_sameBut ch d).comp (State.hostNext_sameBut _)
  | tick => cases h; exact (s.tick_sameBut.comp (State.hostNext_sameBut _)).mono (by decide)
  | reinit | ack _ | irqmask _ | irqen _ | delay _ | idle | ldwrap _ | ldthr _ =>
    cases h
    exact ⟨fun r hr => by cases r <;> simp_all [State.read, State.chan, instrWrites], rfl, rfl, rfl, rfl⟩

/-! ## Read off a frame: a channel's enable and prescaler, the host's place -/

theorem SameBut.en {rs : List Reg} {s t : State} (h : SameBut rs s t) {ch : Channel} (hr : .en ch ∉ rs) :
    (t.chan ch).en = (s.chan ch).en :=
  bool_toNat_inj (h.1 _ hr)

theorem SameBut.div {rs : List Reg} {s t : State} (h : SameBut rs s t) {ch : Channel} (hr : .div ch ∉ rs) :
    (t.chan ch).div = (s.chan ch).div :=
  BitVec.eq_of_toNat_eq (h.1 _ hr)

theorem SameBut.hpc {rs : List Reg} {s t : State} (h : SameBut rs s t) (hr : .hpc ∉ rs) : t.hpc = s.hpc :=
  h.1 _ hr

theorem SameBut.hostIdle {rs : List Reg} {s t : State} (h : SameBut rs s t) (hr : .hostIdle ∉ rs) :
    t.hostIdle = s.hostIdle :=
  bool_toNat_inj (h.1 _ hr)

/-- Of the operations only SETDIV of a channel may write its prescaler (41_channel.md R105, R109). -/
theorem div_mem_instrWrites {i : Instr} {ch : Channel} (h : .div ch ∈ instrWrites i) : ∃ d, i = .setdiv ch d := by
  cases i <;> simp_all [instrWrites, applyWrites, sweepWrites]

/-- Of the operations only TICK may write `DUTY` (42_sweep.md R123). -/
theorem duty_mem_instrWrites {i : Instr} (h : .duty ∈ instrWrites i) : i = .tick := by
  cases i <;> simp_all [instrWrites, applyWrites]

theorem div_not_mem_phaseWrites (p : IsrPhase) (ch : Channel) : .div ch ∉ phaseWrites p := by
  cases p <;> simp [phaseWrites, applyWrites, sweepWrites]

theorem hpc_not_mem_phaseWrites (p : IsrPhase) : .hpc ∉ phaseWrites p := by
  cases p <;> decide

theorem hostIdle_not_mem_phaseWrites (p : IsrPhase) : .hostIdle ∉ phaseWrites p := by
  cases p <;> decide

/-! ## HPC (10_state.md R38) -/

/-- Every operation ends with `HPC + 1` (10_state.md R38). -/
theorem exec_hpc {i : Instr} {s t : State} (h : exec i s = .next t) : t.hpc = s.hpc + 1 := by
  cases i with
  | apply _ | setduty _ _ | setdiv _ _ | tick => cases h; simp
  | _ => cases h; rfl

/-! ## No step disables a channel (10_state.md R30) -/

/-- The channel write enables its channel and leaves the other (41_channel.md R101). -/
theorem State.applyPair_keeps_en (s : State) (ch ch' : Channel) (w t : Nat) (h : (s.chan ch).en = true) :
    ((s.applyPair ch' w t).chan ch).en = true := by
  by_cases hch : ch = ch'
  · simp [hch]
  · rwa [s.applyPair_chan_of_ne _ _ _ _ hch]

/-- Only APPLY and SETDUTY write an enable, through the channel write. -/
theorem exec_keeps_en {i : Instr} {s t : State} {ch : Channel} (h : exec i s = .next t)
    (hen : (s.chan ch).en = true) : (t.chan ch).en = true := by
  have hframe := exec_sameBut h
  cases i with
  | apply ch' => cases h; exact s.applyPair_keeps_en _ _ _ _ hen
  | setduty ch' imm => cases h; exact (s.latchCalc _).applyPair_keeps_en _ _ _ _ hen
  | _ => rw [hframe.en (by simp [instrWrites, sweepWrites])]; exact hen

/-- Only phases 2 and 3 write an enable, through the channel write. -/
theorem State.isrStep_keeps_en (s : State) (ch : Channel) (hen : (s.chan ch).en = true) :
    (s.isrStep.chan ch).en = true := by
  have hframe := s.isrStep_sameBut
  cases hp : s.isrPhase with
  | servo => rw [s.isrStep_of_servo hp]; exact (s.latchCalc _).applyPair_keeps_en _ _ _ _ hen
  | led => rw [s.isrStep_of_led hp]; exact (s.latchCalc _).applyPair_keeps_en _ _ _ _ hen
  | _ => rw [hframe.en (by simp [hp, phaseWrites, sweepWrites])]; exact hen

/-! ## The turn and the step taken (20_memory.md R58) -/

/-- The host's step is the operation its word encodes (10_state.md R38, 30_encoding.md R65). -/
theorem agentStep_host {s : State} {w : Word} {i : Instr} (he : enabled s .host = true) (hf : s.fetch = some w)
    (hd : decode w = .ok i) : agentStep .host s = some (exec i s) := by
  simp [agentStep, he, hostStep, hf, hd]

/-- The agent whose turn it is still has a step with the turn used up. -/
theorem takeTurn_enabled_next (s : State) : enabled (takeTurn s).2 (takeTurn s).1 = true := by
  obtain ⟨l, n, hs⟩ := takeTurn_state s
  rw [hs, enabled_sched]
  exact takeTurn_enabled s

/-- Where the verdict is clear a step is what the agent whose turn it is does. -/
theorem step_of_agentStep {s : State} {o : Host.Outcome State Fault Refusal} (hv : s.verdict = none)
    (h : agentStep (takeTurn s).1 (takeTurn s).2 = some o) : step s = o := by
  simp only [step, hv, turnStep, h]

/-! ## The widths of registers that are no bit vectors (10_state.md R22) -/

theorem Direction.bit_lt (d : Direction) : Direction.bit d < 2 ^ 1 := by
  cases d <;> decide

theorem IsrPhase.number_lt (p : IsrPhase) : IsrPhase.number p < 2 ^ 3 := by
  cases p <;> decide

/-! ## TIMER steps (60_exceptions.md R150, R153) -/

/-- With both channels disabled a TIMER step changes nothing (60_exceptions.md R153). -/
theorem State.timerStep_of_disabled (s : State) (h0 : s.ch0.en = false) (h1 : s.ch1.en = false) : s.timerStep = s := by
  simp [State.timerStep, ChannelRegs.timerTick_of_disabled, wrapBit, ChannelRegs.wraps, h0, h1]

/-- Until its count reaches the active wrap an enabled channel only counts. -/
theorem ticks_chan_of_lt {s : State} {ch : Channel} (hen : (s.chan ch).en = true) {n : Nat}
    (hn : (s.chan ch).ctr + n < (s.chan ch).wrapAct) :
    (ticks n s).chan ch = { s.chan ch with ctr := (s.chan ch).ctr + n } := by
  induction n with
  | zero => rfl
  | succ n ih =>
    have hticks : ticks (n + 1) s = (ticks n s).timerStep := Function.iterate_succ_apply' ..
    have ih := ih (by omega)
    rw [hticks, State.timerStep_chan, ChannelRegs.timerTick_of_lt] <;> simp only [ih]
    · rfl
    · exact hen
    · exact hn

end Machine

namespace Safety

open Sys2Proof.Machine Sys2Proof.Stated

/-! ## Counting steps -/

/-- Of the first `w` steps those before `c`. -/
theorem countBelow_lt (c w : Nat) : countBelow (fun k => decide (k < c)) w = min c w := by
  induction w with
  | zero => simp [countBelow]
  | succ w ih =>
    have hs : countBelow (fun k => decide (k < c)) (w + 1) =
        countBelow (fun k => decide (k < c)) w + if w < c then 1 else 0 := by
      simp [countBelow, List.range_succ]
    rw [hs, ih]
    split <;> omega

theorem countBelow_congr {p q : Nat → Bool} {n : Nat} (h : ∀ k < n, p k = q k) : countBelow p n = countBelow q n :=
  List.countP_congr fun k hk => by rw [h k (List.mem_range.1 hk)]

end Safety

namespace Stated

open Sys2Proof.Machine Sys2Proof.Safety

/-! ## The sweep's grid (10_state.md R23) -/

/-- `DUTY` and the configuration are all that OnGrid reads. -/
theorem OnGrid.of_sameBut {rs : List Reg} {s t : State} (h : OnGrid s) (hf : SameBut rs s t) (hr : .duty ∉ rs) :
    OnGrid t := by
  have hduty : t.duty.toNat = s.duty.toNat := hf.1 .duty hr
  unfold OnGrid
  rwa [hduty, hf.2.1]

/-- What a tick emits is on the grid: `DUTY`, or `LOWER` on the first tick. -/
theorem OnGrid.emitted {s : State} (h : OnGrid s) (hwf : s.cfg.wf = true) :
    (∃ m, emitted s + s.cfg.stepUs = s.cfg.lower + s.cfg.stepUs * m) ∧ emitted s ≤ s.cfg.upper := by
  obtain ⟨-, -, -, -, -, ⟨-, hlu⟩, -⟩ := s.cfg.wf_iff.1 hwf
  unfold Stated.emitted
  split
  · exact h
  · exact ⟨⟨1, by rw [mul_one]⟩, hlu.le⟩

/-- A tick moves by one grid point: up from below `UPPER`, itself a grid point, or down from `LOWER` or above. -/
theorem OnGrid.tick {s : State} (h : OnGrid s) (hwf : s.cfg.wf = true) (hs : SweepFits s)
    (hdvd : s.cfg.stepUs ∣ s.cfg.upper - s.cfg.lower) : OnGrid s.tick := by
  obtain ⟨-, -, -, -, hstep, ⟨-, hlu⟩, -⟩ := s.cfg.wf_iff.1 hwf
  obtain ⟨⟨m, hm⟩, hle⟩ := h.emitted hwf
  unfold OnGrid
  rw [State.tick_cfg]
  cases hd : s.dir with
  | increasing =>
    obtain ⟨q, hq⟩ := hdvd
    have hlt := (emitted_of_increasing hwf hs hd).2
    have hmq : m < q + 1 := Nat.lt_of_mul_lt_mul_left (a := s.cfg.stepUs) (by rw [mul_add_one]; omega)
    have htop := Nat.mul_le_mul_left s.cfg.stepUs (Nat.le_of_lt_succ hmq)
    rw [tick_duty_of_increasing hwf hs hd]
    exact ⟨⟨m + 1, by rw [mul_add_one]; omega⟩, by omega⟩
  | decreasing =>
    have hge := (emitted_of_decreasing hwf hs hd).1
    have hduty := tick_duty_of_decreasing hwf hs hd
    cases m with
    | zero => omega
    | succ m => rw [mul_add_one] at hm; exact ⟨⟨m, by omega⟩, by omega⟩

/-- An operation keeps the grid. -/
theorem OnGrid.of_exec {i : Instr} {s t : State} (hg : OnGrid s) (hwf : s.cfg.wf = true) (hs : SweepFits s)
    (hdvd : s.cfg.stepUs ∣ s.cfg.upper - s.cfg.lower) (h : exec i s = .next t) : OnGrid t := by
  by_cases hmem : .duty ∈ instrWrites i
  · cases duty_mem_instrWrites hmem
    cases h
    exact (hg.tick hwf hs hdvd).of_sameBut s.tick.hostNext_sameBut (by decide)
  · exact hg.of_sameBut (exec_sameBut h) hmem

/-- A phase keeps the grid. -/
theorem OnGrid.isrStep {s : State} (hg : OnGrid s) (hwf : s.cfg.wf = true) (hs : SweepFits s)
    (hdvd : s.cfg.stepUs ∣ s.cfg.upper - s.cfg.lower) : OnGrid s.isrStep := by
  have hframe := s.isrStep_sameBut
  cases hp : s.isrPhase with
  | tick => rw [s.isrStep_of_tick hp]; exact (hg.tick hwf hs hdvd).of_sameBut (s.tick.toPhase_sameBut _) (by decide)
  | _ => rw [hp] at hframe; exact hg.of_sameBut hframe (by decide)

end Stated

namespace Machine

open Sys2Proof.Stated Sys2Proof.Safety

/-! ## States that differ in the prescalers only (10_state.md R31) -/

/-- The state with both prescalers replaced. -/
def State.withPrescalers (s : State) (d0 d1 : BitVec 8) : State :=
  { s with ch0 := { s.ch0 with div := d0 }, ch1 := { s.ch1 with div := d1 } }

theorem State.withPrescalers_sameBut (s : State) (d0 d1 : BitVec 8) :
    SameBut [.div .ch0, .div .ch1] s (s.withPrescalers d0 d1) := by
  refine ⟨fun r hr => ?_, rfl, rfl, rfl, rfl⟩
  cases r with
  | div ch => cases ch <;> simp at hr
  | wrap ch | cc ch | en ch | wrapAct ch | ccAct ch | ctr ch => cases ch <;> rfl
  | _ => rfl

/-- Two states that agree but for the prescalers are one state and that state with its prescalers replaced. -/
theorem SameBut.eq_withPrescalers {s s' : State} (h : SameBut [.div .ch0, .div .ch1] s s') :
    s' = s.withPrescalers s'.ch0.div s'.ch1.div := by
  refine SameBut.eq ⟨fun r _ => ?_, h.2⟩
  by_cases hr : r ∈ [Reg.div .ch0, .div .ch1]
  · fin_cases hr <;> rfl
  · exact (h.1 r hr).trans ((s.withPrescalers_sameBut _ _).1 r hr).symm

theorem ChannelRegs.apply_withDiv (cfg : Config) (w t : Nat) (c : ChannelRegs) (d : BitVec 8) :
    ChannelRegs.apply cfg w t { c with div := d } = { c.apply cfg w t with div := d } := by
  unfold ChannelRegs.apply; split <;> simp_all [ChannelRegs.load, ChannelRegs.program]

theorem ChannelRegs.timerTick_withDiv (m : UpdateMode) (c : ChannelRegs) (d : BitVec 8) :
    ChannelRegs.timerTick m { c with div := d } = { c.timerTick m with div := d } := by
  unfold ChannelRegs.timerTick ChannelRegs.wrapEvent ChannelRegs.wraps
  split <;> [split; split] <;> rfl

theorem State.applyPair_withPrescalers (s : State) (d0 d1 : BitVec 8) (ch : Channel) (w t : Nat) :
    (s.withPrescalers d0 d1).applyPair ch w t = (s.applyPair ch w t).withPrescalers d0 d1 := by
  cases ch <;> simp [State.applyPair, State.setChan, State.withPrescalers, ChannelRegs.apply_withDiv]

theorem State.setduty_withPrescalers (s : State) (d0 d1 : BitVec 8) (ch : Channel) (v : Nat) :
    (s.withPrescalers d0 d1).setduty ch v = (s.setduty ch v).withPrescalers d0 d1 :=
  (s.latchCalc (s.cfg.narrowP v)).applyPair_withPrescalers d0 d1 ch _ _

theorem State.tickInit_withPrescalers (s : State) (d0 d1 : BitVec 8) :
    (s.withPrescalers d0 d1).tickInit = s.tickInit.withPrescalers d0 d1 := by
  unfold State.tickInit; split <;> simp_all [State.withPrescalers]

theorem State.tickAdvance_withPrescalers (s : State) (d0 d1 : BitVec 8) :
    (s.withPrescalers d0 d1).tickAdvance = s.tickAdvance.withPrescalers d0 d1 := by
  unfold State.tickAdvance; split <;> simp_all [State.withPrescalers]

theorem State.tick_withPrescalers (s : State) (d0 d1 : BitVec 8) :
    (s.withPrescalers d0 d1).tick = s.tick.withPrescalers d0 d1 := by
  unfold State.tick
  rw [s.tickInit_withPrescalers]
  exact s.tickInit.tickEmit.tickAdvance_withPrescalers d0 d1

theorem State.timerStep_withPrescalers (s : State) (d0 d1 : BitVec 8) :
    (s.withPrescalers d0 d1).timerStep = s.timerStep.withPrescalers d0 d1 := by
  simp only [State.timerStep, State.withPrescalers, ChannelRegs.timerTick_withDiv]
  rfl

theorem State.isrStep_withPrescalers (s : State) (d0 d1 : BitVec 8) :
    (s.withPrescalers d0 d1).isrStep = s.isrStep.withPrescalers d0 d1 := by
  cases hp : s.isrPhase with
  | ack => rw [s.isrStep_of_ack hp, State.isrStep_of_ack (s.withPrescalers d0 d1) hp]; rfl
  | tick =>
    rw [s.isrStep_of_tick hp, State.isrStep_of_tick (s.withPrescalers d0 d1) hp]
    exact congrArg (State.toPhase · _) (s.tick_withPrescalers d0 d1)
  | servo =>
    rw [s.isrStep_of_servo hp, State.isrStep_of_servo (s.withPrescalers d0 d1) hp]
    exact congrArg (State.toPhase · _) (s.setduty_withPrescalers d0 d1 .ch0 _)
  | led =>
    rw [s.isrStep_of_led hp, State.isrStep_of_led (s.withPrescalers d0 d1) hp]
    exact congrArg (State.toPhase · _) (s.setduty_withPrescalers d0 d1 .ch1 _)
  | ret => rw [s.isrStep_of_ret hp, State.isrStep_of_ret (s.withPrescalers d0 d1) hp]; rfl

theorem enabled_withPrescalers (s : State) (d0 d1 : BitVec 8) (a : Agent) :
    enabled (s.withPrescalers d0 d1) a = enabled s a := by
  cases a <;> rfl

/-- An operation does the same whatever the prescalers; SETDIV itself writes one. -/
theorem exec_withPrescalers {i : Instr} {s t : State} (h : exec i s = .next t) (d0 d1 : BitVec 8) :
    ∃ e0 e1, exec i (s.withPrescalers d0 d1) = .next (t.withPrescalers e0 e1) := by
  cases i with
  | setdiv ch d =>
    cases h
    cases ch
    · exact ⟨d, d1, rfl⟩
    · exact ⟨d0, d, rfl⟩
  | apply ch =>
    cases h
    exact ⟨d0, d1, congrArg (Host.Outcome.next ∘ State.hostNext) (s.applyPair_withPrescalers d0 d1 ch _ _)⟩
  | setduty ch imm =>
    cases h
    exact ⟨d0, d1, congrArg (Host.Outcome.next ∘ State.hostNext) (s.setduty_withPrescalers d0 d1 ch _)⟩
  | tick => cases h; exact ⟨d0, d1, congrArg (Host.Outcome.next ∘ State.hostNext) (s.tick_withPrescalers d0 d1)⟩
  | _ => cases h; exact ⟨d0, d1, rfl⟩

/-- The step of an agent does the same whatever the prescalers. -/
theorem agentStep_withPrescalers {a : Agent} {s t : State} (h : agentStep a s = some (.next t)) (d0 d1 : BitVec 8) :
    ∃ e0 e1, agentStep a (s.withPrescalers d0 d1) = some (.next (t.withPrescalers e0 e1)) := by
  have he : enabled (s.withPrescalers d0 d1) a = true := by
    rw [enabled_withPrescalers, ← agentStep_isSome, h]; rfl
  rcases agentStep_cases h with
    ⟨rfl, -, -, -, w, i, hf, hd, hx⟩ | ⟨rfl, rfl⟩ | ⟨rfl, hin, rfl⟩ | ⟨rfl, hin, hirq, rfl⟩
  · obtain ⟨e0, e1, hx'⟩ := exec_withPrescalers hx d0 d1
    exact ⟨e0, e1, by rw [agentStep_host he hf hd, hx']⟩
  · exact ⟨d0, d1, by rw [agentStep_timer, s.timerStep_withPrescalers]⟩
  · exact ⟨d0, d1, by rw [agentStep_isr_of_inHandler (s.withPrescalers d0 d1) hin, s.isrStep_withPrescalers]⟩
  · exact ⟨d0, d1, agentStep_isr_of_irq _ hin hirq⟩

end Machine

namespace Safety

open Sys2Proof.Machine Sys2Proof.Stated

/-! ## The statements -/

/-- Settles O47: each agent's frame. -/
theorem onlyTheNamedWritersWrite : Obligations.OnlyTheNamedWritersWrite := by
  refine ⟨fun _ _ _ h => exec_sameBut h, fun s t h => ?_, fun s t h => ?_⟩
  · cases h; exact s.timerStep_sameBut
  · rcases agentStep_cases h with ⟨⟨⟩, -⟩ | ⟨⟨⟩, -⟩ | ⟨-, hin, rfl⟩ | ⟨-, hin, -, rfl⟩
    · rw [if_pos hin]; exact s.isrStep_sameBut
    · rw [if_neg (by simp [hin])]; exact s.isrEnter_sameBut

/-- Settles O19: an enable is written by the channel write only, which sets it, and a prescaler by SETDIV only. -/
theorem noStepDisablesAChannel : Obligations.NoStepDisablesAChannel := by
  intro a s t ch h
  rcases agentStep_cases h with
    ⟨rfl, -, -, -, w, i, hf, hd, hx⟩ | ⟨-, rfl⟩ | ⟨-, -, rfl⟩ | ⟨-, -, -, rfl⟩
  · refine ⟨exec_keeps_en hx, fun hne => ⟨rfl, w, ?_⟩⟩
    by_cases hmem : .div ch ∈ instrWrites i
    · obtain ⟨d, rfl⟩ := div_mem_instrWrites hmem
      exact ⟨d, hf, hd⟩
    · exact absurd ((exec_sameBut hx).div hmem) hne
  · have hframe := s.timerStep_sameBut
    exact ⟨fun hen => by rwa [hframe.en (by simp [timerWrites])],
      fun hne => absurd (hframe.div (by simp [timerWrites])) hne⟩
  · exact ⟨s.isrStep_keeps_en ch, fun hne => absurd (s.isrStep_sameBut.div (div_not_mem_phaseWrites _ ch)) hne⟩
  · exact ⟨fun hen => by simpa using hen, fun hne => by simp at hne⟩

/-- Settles O20: within the period no wrap event falls, so the count after `k` TIMER steps is `k` and the compare value
is the one at its start. -/
theorem outputIsActiveForMinOfCompareAndWrap : Obligations.OutputIsActiveForMinOfCompareAndWrap := by
  refine ⟨fun s ch => by simp [pwmOut], fun s ch hen hctr _ _ => ?_⟩
  have hout : ∀ k < (s.chan ch).wrapAct, pwmOut (ticks k s) ch = decide (k < (s.chan ch).ccAct) := fun k hk => by
    have hchan := ticks_chan_of_lt hen (n := k) (by omega)
    simp [pwmOut, hchan, hen, hctr]
  rw [countBelow_congr hout, countBelow_lt]

/-- Settles O43: the step of the agent whose turn it is, and the scheduled agent's turn where it has a step. -/
theorem stepIsOneStepOfAnEnabledAgent : Obligations.StepIsOneStepOfAnEnabledAgent := by
  refine ⟨fun s t h => ?_, fun s a rest hv he hs => ?_⟩
  · obtain ⟨-, ha⟩ := step_cases h
    obtain ⟨l, n, hturn⟩ := takeTurn_state s
    rw [hturn] at ha
    exact ⟨_, l, n, takeTurn_enabled s, ha⟩
  · have hturn := takeTurn_of_sched s a rest he hs
    obtain ⟨t, ht⟩ := agentStep_next (s := { s with sched := rest }) hv (by rwa [enabled_sched])
    rw [ht, step_of_agentStep hv (by rw [hturn]; exact ht)]

/-- Settles O42: the host has a step on its turn, and that step is the operation its word encodes. -/
theorem stepRunsTheDecodedInstruction : Obligations.StepRunsTheDecodedInstruction := by
  intro s w i hv hturn hf hd
  obtain ⟨l, n, hs⟩ := takeTurn_state s
  have he := takeTurn_enabled_next s
  rw [hturn] at he
  refine ⟨step_of_agentStep hv ?_, by rw [hs]⟩
  rw [hturn]
  exact agentStep_host he (by rw [hs]; exact hf) hd

/-- Settles O48: only operations write HPC; the host that takes a step is neither suspended nor idle. -/
theorem hpcMovesOnlyWithTheHost : Obligations.HpcMovesOnlyWithTheHost := by
  refine ⟨fun a s t h => ?_, fun s t h => ?_⟩
  · rcases agentStep_cases h with ⟨rfl, -, -, -, w, i, -, -, hx⟩ | ⟨rfl, rfl⟩ | ⟨rfl, -, rfl⟩ | ⟨rfl, -, -, rfl⟩
    · exact ⟨fun _ => exec_hpc hx, fun hne => absurd rfl hne⟩
    · exact ⟨nofun, fun _ => s.timerStep_hpc⟩
    · exact ⟨nofun, fun _ => s.isrStep_sameBut.hpc (hpc_not_mem_phaseWrites _)⟩
    · exact ⟨nofun, fun _ => s.isrEnter_hpc⟩
  · obtain ⟨-, l, n, s', rfl, hcase⟩ := step_next_cases h
    rcases hcase with ⟨hin, hidle, hlen, w, i, -, -, hx⟩ | rfl | ⟨-, rfl⟩ | ⟨-, -, rfl⟩
    · have hpc := exec_hpc hx
      exact ⟨.inr ⟨hpc, hlen, hin, hidle⟩, fun hi => by simp [hidle] at hi⟩
    · exact ⟨.inl rfl, fun hi => ⟨hi, rfl⟩⟩
    · have hframe := State.isrStep_sameBut { s with sched := l, draws := n }
      have hpc := hframe.hpc (hpc_not_mem_phaseWrites _)
      exact ⟨.inl hpc, fun hi => ⟨(hframe.hostIdle (hostIdle_not_mem_phaseWrites _)).trans hi, hpc⟩⟩
    · exact ⟨.inl rfl, fun hi => ⟨hi, rfl⟩⟩

/-- Settles O51: a step commutes with replacing the prescalers. -/
theorem nothingReadsThePrescalers : Obligations.NothingReadsThePrescalers := by
  intro a s s' t hsame h
  rw [hsame.eq_withPrescalers]
  obtain ⟨e0, e1, h'⟩ := agentStep_withPrescalers h s'.ch0.div s'.ch1.div
  exact ⟨_, h', t.withPrescalers_sameBut e0 e1⟩

/-- Settles O55: the invariant bounds the REG_WIDTH registers; the type of every other register is its bound. -/
theorem registersFitTheirWidths : Obligations.RegistersFitTheirWidths := by
  intro s r n h hw
  cases r with
  | calcWrap | calcThr | hpc => cases hw
  | duty | servoOut | ledOut | intRaw | intMask | div _ => cases hw; exact BitVec.isLt _
  | init | irqGen | inHandler | hostIdle | en _ => cases hw; exact Bool.toNat_lt _
  | dir => cases hw; exact Direction.bit_lt _
  | isrPhase => cases hw; exact IsrPhase.number_lt _
  | wrap ch | cc ch | wrapAct ch | ccAct ch | ctr ch =>
    obtain ⟨hwrap, hcc, hwrapAct, hccAct, hctr, -⟩ := h.chan ch
    cases hw
    assumption

/-- Settles O57: only a tick, the host's or phase 1's, moves DUTY, by one grid point. -/
theorem stepKeepsDutyOnTheGrid : Obligations.StepKeepsDutyOnTheGrid := by
  intro s t h hdvd hg hstep
  obtain ⟨hwf, -, -, hs, -⟩ := h
  obtain ⟨-, l, n, s', rfl, hcase⟩ := step_next_cases hstep
  have hg' : OnGrid { s with sched := l, draws := n } := hg
  rcases hcase with ⟨-, -, -, w, i, -, -, hx⟩ | rfl | ⟨-, rfl⟩ | ⟨-, -, rfl⟩
  · exact hg'.of_exec hwf hs hdvd hx
  · exact hg'.of_sameBut (State.timerStep_sameBut _) (by decide)
  · exact hg'.isrStep hwf hs hdvd
  · exact hg'.of_sameBut (State.isrEnter_sameBut _) (by decide)

/-- Settles O52: reset's values register by register; with both channels disabled a tick does nothing. -/
theorem resetLeavesTheBlockQuiet : Obligations.ResetLeavesTheBlockQuiet := by
  intro c p
  refine ⟨fun r hd h0 h1 => ?_, fun hwf => lowerDuty_toNat c hwf, fun ch => by cases ch <;> rfl, rfl, ?_, rfl⟩
  · cases r with
    | duty => exact absurd rfl hd
    | div ch => cases ch <;> contradiction
    | wrap ch | cc ch | en ch | wrapAct ch | ccAct ch | ctr ch => cases ch <;> rfl
    | _ => rfl
  · exact State.timerStep_of_disabled _ rfl rfl

end Safety

end Sys2Proof

/-! # Scope: stored words, and the handler beside the TIMER

A word put together from its bytes again; and the handler, which does the same to every other register whatever the
registers the TIMER writes hold: its step commutes with setting those to 0. -/

namespace Sys2Proof

/-! ## A word and its bytes (20_memory.md R53) -/

/-- The byte of a word from bit `n` up, read off the word as a natural. -/
theorem byte_eq_ofNat_div (w : Word) (n : Nat) : w.extractLsb' n 8 = BitVec.ofNat 8 (w.toNat / 2 ^ n) := by
  rw [BitVec.extractLsb', Nat.shiftRight_eq_div_pow]

/-- Adjacent pieces of a word join to the piece they cover: the top two bytes, then three, then the whole word. -/
theorem append_bytes (w : Word) :
    w.extractLsb' 24 8 ++ w.extractLsb' 16 8 ++ w.extractLsb' 8 8 ++ w.extractLsb' 0 8 = w := by
  rw [BitVec.extractLsb'_append_extractLsb'_eq_extractLsb' (show 24 = 16 + 8 from rfl),
    BitVec.extractLsb'_append_extractLsb'_eq_extractLsb' (show 16 = 8 + 8 from rfl),
    BitVec.extractLsb'_append_extractLsb'_eq_extractLsb' (show 8 = 0 + 8 from rfl)]
  exact BitVec.extractLsb'_eq_self

theorem readWord_wordBytes_append (w : Word) (rest : List Byte) : readWord (wordBytes w ++ rest) = some (w, rest) :=
  congrArg (fun v => some (v, rest)) (append_bytes w)

theorem wordBytes_eq_map_range (w : Word) :
    wordBytes w = (List.range 4).map fun k => BitVec.ofNat 8 (w.toNat / 2 ^ (8 * k)) := by
  simp only [wordBytes, byte_eq_ofNat_div]
  rfl

namespace Machine

open Sys2Proof.Stated Sys2Proof.Safety

/-! ## States that differ in what the TIMER writes only (20_memory.md R59) -/

theorem SameBut.symm {rs : List Reg} {s t : State} (h : SameBut rs s t) : SameBut rs t s := by
  obtain ⟨hread, hcfg, hprog, hsched, hdraws⟩ := h
  exact ⟨fun r hr => (hread r hr).symm, hcfg.symm, hprog.symm, hsched.symm, hdraws.symm⟩

theorem SameBut.inHandler {rs : List Reg} {s t : State} (h : SameBut rs s t) (hr : .inHandler ∉ rs) :
    t.inHandler = s.inHandler :=
  bool_toNat_inj (h.1 _ hr)

/-- A channel's registers, those that a TIMER step may write set to 0. -/
def ChannelRegs.zeroTimerRegs (c : ChannelRegs) : ChannelRegs := { c with wrapAct := 0, ccAct := 0, ctr := 0 }

/-- The state, the registers that a TIMER step may write set to 0. -/
def State.zeroTimerRegs (s : State) : State :=
  { s with ch0 := s.ch0.zeroTimerRegs, ch1 := s.ch1.zeroTimerRegs, intRaw := 0#2 }

theorem State.zeroTimerRegs_sameBut (s : State) : SameBut timerWrites s s.zeroTimerRegs := by
  refine ⟨fun r hr => ?_, rfl, rfl, rfl, rfl⟩
  cases r with
  | wrap ch | cc ch | en ch | div ch => cases ch <;> rfl
  | wrapAct ch | ccAct ch | ctr ch => cases ch <;> simp [timerWrites] at hr
  | intRaw => simp [timerWrites] at hr
  | _ => rfl

/-- Setting those registers to 0 forgets what they hold and nothing else. -/
theorem sameBut_timerWrites_iff {s t : State} : SameBut timerWrites s t ↔ t.zeroTimerRegs = s.zeroTimerRegs := by
  constructor
  · intro h
    have hzero := s.zeroTimerRegs_sameBut.symm.trans (h.trans t.zeroTimerRegs_sameBut)
    refine SameBut.eq ⟨fun r _ => ?_, hzero.2⟩
    by_cases hr : r ∈ timerWrites
    · fin_cases hr <;> rfl
    · exact hzero.1 r hr
  · intro h
    exact (h ▸ s.zeroTimerRegs_sameBut).trans t.zeroTimerRegs_sameBut.symm

/-! ## The handler's operations on such states -/

@[simp] theorem ChannelRegs.zeroTimerRegs_zeroTimerRegs (c : ChannelRegs) :
    c.zeroTimerRegs.zeroTimerRegs = c.zeroTimerRegs := rfl

/-- The count and the active copies reach nothing but themselves in the channel write (41_channel.md R101 to R103). -/
@[simp] theorem ChannelRegs.apply_zeroTimerRegs (cfg : Config) (w t : Nat) (c : ChannelRegs) :
    (c.zeroTimerRegs.apply cfg w t).zeroTimerRegs = (c.apply cfg w t).zeroTimerRegs := by
  simp [zeroTimerRegs]

theorem State.applyPair_zeroTimerRegs (s : State) (ch : Channel) (w t : Nat) :
    (s.zeroTimerRegs.applyPair ch w t).zeroTimerRegs = (s.applyPair ch w t).zeroTimerRegs := by
  cases ch <;> simp [State.applyPair, State.setChan, State.chan, State.zeroTimerRegs]

theorem State.setduty_zeroTimerRegs (s : State) (ch : Channel) (v : Nat) :
    (s.zeroTimerRegs.setduty ch v).zeroTimerRegs = (s.setduty ch v).zeroTimerRegs :=
  (s.latchCalc (s.cfg.narrowP v)).applyPair_zeroTimerRegs ch _ _

theorem State.tickInit_zeroTimerRegs (s : State) : s.zeroTimerRegs.tickInit = s.tickInit.zeroTimerRegs := by
  unfold State.tickInit; split <;> simp_all [State.zeroTimerRegs]

theorem State.tickAdvance_zeroTimerRegs (s : State) : s.zeroTimerRegs.tickAdvance = s.tickAdvance.zeroTimerRegs := by
  unfold State.tickAdvance; split <;> simp_all [State.zeroTimerRegs]

theorem State.tick_zeroTimerRegs (s : State) : s.zeroTimerRegs.tick = s.tick.zeroTimerRegs := by
  unfold State.tick
  rw [s.tickInit_zeroTimerRegs]
  exact s.tickInit.tickEmit.tickAdvance_zeroTimerRegs

/-- A phase does the same to the other registers whatever the TIMER's hold. -/
theorem State.isrStep_zeroTimerRegs (s : State) : s.zeroTimerRegs.isrStep.zeroTimerRegs = s.isrStep.zeroTimerRegs := by
  cases hp : s.isrPhase with
  | ack => rw [s.isrStep_of_ack hp, s.zeroTimerRegs.isrStep_of_ack hp]; rfl
  | tick => rw [s.isrStep_of_tick hp, s.zeroTimerRegs.isrStep_of_tick hp, s.tick_zeroTimerRegs]; rfl
  | servo =>
    rw [s.isrStep_of_servo hp, s.zeroTimerRegs.isrStep_of_servo hp]
    exact congrArg (State.toPhase · .led) (s.setduty_zeroTimerRegs .ch0 _)
  | led =>
    rw [s.isrStep_of_led hp, s.zeroTimerRegs.isrStep_of_led hp]
    exact congrArg (State.toPhase · .ret) (s.setduty_zeroTimerRegs .ch1 _)
  | ret => rw [s.isrStep_of_ret hp, s.zeroTimerRegs.isrStep_of_ret hp]; rfl

theorem isrStep_sameBut_timerWrites {s s' : State} (h : SameBut timerWrites s s') :
    SameBut timerWrites s.isrStep s'.isrStep := by
  rw [sameBut_timerWrites_iff] at h ⊢
  rw [← s'.isrStep_zeroTimerRegs, h, s.isrStep_zeroTimerRegs]

end Machine

namespace Safety

open Sys2Proof.Machine Sys2Proof.Stated

/-! ## The statements -/

/-- Settles O41: both states run a phase, and phases keep states alike but for what the TIMER writes. -/
theorem handlerDoesNotReadWhatTheTimerWrites : Obligations.HandlerDoesNotReadWhatTheTimerWrites := by
  intro s s' t hin hsame h
  have hin' : s'.inHandler = true := (hsame.inHandler (by decide)).trans hin
  rw [agentStep_isr_of_inHandler s hin] at h
  cases h
  exact ⟨s'.isrStep, agentStep_isr_of_inHandler s' hin', isrStep_sameBut_timerWrites hsame⟩

/-- Settles O7: the four bytes are adjacent pieces of the word, and each is the word divided down to its low bit. -/
theorem storedWordsAreReadBack : Obligations.StoredWordsAreReadBack :=
  fun w rest => ⟨readWord_wordBytes_append w rest, wordBytes_eq_map_range w⟩

end Safety

end Sys2Proof

/-! # Scope: format O, decoded and encoded, and the verdict on a program

A word that decodes is the encoding of a well-formed operation, and the other way round; the fields, the table's rows and
the spec's words are read off encodings. The reasons of refused words are the reasons of the decoder's checks in order. -/

namespace Sys2Proof

open Sys2Proof.Stated Sys2Proof.Machine

/-! ## The fields of a word (30_encoding.md R66) -/

@[simp] theorem opField_formatO (op ch : BitVec 4) (z : BitVec 8) (imm : BitVec 16) :
    opField (formatO op ch z imm) = op := (fields_formatO op ch z imm).1

@[simp] theorem chField_formatO (op ch : BitVec 4) (z : BitVec 8) (imm : BitVec 16) :
    chField (formatO op ch z imm) = ch := (fields_formatO op ch z imm).2.1

@[simp] theorem zField_formatO (op ch : BitVec 4) (z : BitVec 8) (imm : BitVec 16) :
    zField (formatO op ch z imm) = z := (fields_formatO op ch z imm).2.2.1

@[simp] theorem immField_formatO (op ch : BitVec 4) (z : BitVec 8) (imm : BitVec 16) :
    immField (formatO op ch z imm) = imm := (fields_formatO op ch z imm).2.2.2

theorem formatO_eq_of_fields {w : Word} {op ch : BitVec 4} {z : BitVec 8} {imm : BitVec 16} (hop : opField w = op)
    (hch : chField w = ch) (hz : zField w = z) (himm : immField w = imm) : formatO op ch z imm = w := by
  rw [← hop, ← hch, ← hz, ← himm, formatO_fields]

theorem opNat_lt (w : Word) : opNat w < 2 ^ 4 := by
  have hw := w.isLt
  unfold opNat
  omega

@[simp] theorem opField_toNat (w : Word) : (opField w).toNat = opNat w := by
  rw [opField, BitVec.extractLsb'_toNat, Nat.shiftRight_eq_div_pow]
  exact Nat.mod_eq_of_lt (opNat_lt w)

@[simp] theorem chField_toNat (w : Word) : (chField w).toNat = chNat w := by
  simp only [chField, chNat, BitVec.extractLsb'_toNat, Nat.shiftRight_eq_div_pow]

@[simp] theorem zField_toNat (w : Word) : (zField w).toNat = zNat w := by
  simp only [zField, zNat, BitVec.extractLsb'_toNat, Nat.shiftRight_eq_div_pow]

@[simp] theorem immField_toNat (w : Word) : (immField w).toNat = immNat w := by
  simp only [immField, immNat, BitVec.extractLsb'_toNat, Nat.shiftRight_zero]

@[simp] theorem Channel.field_toNat (ch : Channel) : ch.field.toNat = Channel.number ch := by
  cases ch <;> rfl

/-- An immediate holds a narrower operand zero-extended (R67). -/
theorem toNat_zero_append {m n : Nat} (b : BitVec n) : (0#m ++ b).toNat = b.toNat := by
  simp only [BitVec.toNat_append, BitVec.toNat_ofNat, Nat.zero_mod, Nat.zero_shiftLeft, Nat.zero_or]

/-! ## Decode and encode are inverse (30_encoding.md R70) -/

theorem decode_encode (i : Instr) (hwf : i.wf = true) : decode (encode i) = .ok i := by
  cases i with
  | calculate imm | tick | reinit | delay imm | idle | ldwrap imm | ldthr imm =>
    simp [encode, decode, zeroZ_eq_ok, zeroCh_eq_ok, zeroImm_eq_ok]
  | setduty ch imm | apply ch => simp [encode, decode, zeroZ_eq_ok, zeroImm_eq_ok, readCh_eq_ok]
  | ack b | irqmask b => simp [encode, decode, zeroZ_eq_ok, zeroCh_eq_ok, readChanSet_eq_ok, imm_of_chanSet]
  | irqen on =>
    obtain ⟨hhigh, hflag⟩ := imm_of_flag on
    simp only [encode, decode, opField_formatO, chField_formatO, zField_formatO, immField_formatO, zeroZ_eq_ok,
      zeroCh_eq_ok, readFlag_eq_ok, hhigh, hflag, and_self]
  | setdiv ch d =>
    obtain ⟨hhigh, hdiv, hzero⟩ := imm_of_divisor d
    have hd : d ≠ 0#8 := by simpa [Instr.wf] using hwf
    simp [encode, decode, zeroZ_eq_ok, readCh_eq_ok, readDivisor_eq_ok, hhigh, hdiv, hzero, hd]

theorem encode_of_decode {w : Word} {i : Instr} (h : decode w = .ok i) : encode i = w ∧ i.wf = true := by
  unfold decode at h
  split at h <;> rename_i hop <;>
    simp only [zeroZ_eq_ok, zeroCh_eq_ok, zeroImm_eq_ok, readCh_eq_ok, readChanSet_eq_ok, readFlag_eq_ok,
      readDivisor_eq_ok, Except.ok.injEq, reduceCtorEq] at h
  case h_1 | h_10 | h_12 | h_13 => -- CALC, DELAY, LDWRAP, LDTHR
    obtain ⟨hz, hch, rfl⟩ := h
    exact ⟨formatO_eq_of_fields hop hch hz rfl, rfl⟩
  case h_2 => -- APPLY
    obtain ⟨hz, ch, hch, himm, rfl⟩ := h
    exact ⟨formatO_eq_of_fields hop hch hz himm, rfl⟩
  case h_3 => -- SETDUTY
    obtain ⟨hz, ch, hch, rfl⟩ := h
    exact ⟨formatO_eq_of_fields hop hch hz rfl, rfl⟩
  case h_4 => -- SETDIV
    obtain ⟨hz, ch, hch, ⟨hhigh, hne⟩, rfl⟩ := h
    obtain ⟨himm, hd⟩ := divisor_of_imm _ hhigh
    exact ⟨formatO_eq_of_fields hop hch hz himm.symm, by simpa [Instr.wf] using hd hne⟩
  case h_5 | h_6 | h_11 => -- TICK, REINIT, IDLE
    obtain ⟨hz, hch, himm, rfl⟩ := h
    exact ⟨formatO_eq_of_fields hop hch hz himm, rfl⟩
  case h_7 | h_8 => -- ACK, IRQMASK
    obtain ⟨hz, hch, hhigh, rfl⟩ := h
    exact ⟨formatO_eq_of_fields hop hch hz (chanSet_of_imm _ hhigh).symm, rfl⟩
  case h_9 => -- IRQEN
    obtain ⟨hz, hch, hhigh, rfl⟩ := h
    exact ⟨formatO_eq_of_fields hop hch hz (flag_of_imm _ hhigh).symm, rfl⟩

theorem decode_eq_ok_iff {w : Word} {i : Instr} : decode w = .ok i ↔ encode i = w ∧ i.wf = true :=
  ⟨encode_of_decode, fun ⟨henc, hwf⟩ => henc ▸ decode_encode i hwf⟩

/-- The fields of an operation's word are its code and operands (R67, R68). -/
theorem fields_encode (i : Instr) :
    (opNat (encode i), chNat (encode i), immNat (encode i)) = operandFields i ∧ zNat (encode i) = 0 := by
  simp only [← opField_toNat, ← chField_toNat, ← immField_toNat, ← zField_toNat]
  cases i <;>
    simp only [encode, operandFields, opField_formatO, chField_formatO, zField_formatO, immField_formatO,
      Channel.field_toNat, BitVec.toNat_ofNat, Nat.reducePow, Nat.reduceMod, and_self, Prod.mk.injEq, true_and, and_true]
  case setdiv | ack | irqmask => exact toNat_zero_append _
  case irqen on => exact (toNat_zero_append _).trans (BitVec.toNat_ofBool on)

/-! ## The rows of the table (30_encoding.md R69) -/

theorem row_mem_opcodeTable (i : Instr) : i.row ∈ opcodeTable := by
  cases i <;> simp [Instr.row, opcodeTable]

theorem row_fits_encode (i : Instr) (hwf : i.wf = true) : i.row.fits (encode i) = true :=
  match i with
  | .calculate imm => Laws.EncodeFits.calculate imm hwf
  | .apply ch => Laws.EncodeFits.apply ch hwf
  | .setduty ch imm => Laws.EncodeFits.setduty ch imm hwf
  | .setdiv ch d => Laws.EncodeFits.setdiv ch d hwf
  | .tick => Laws.EncodeFits.tick hwf
  | .reinit => Laws.EncodeFits.reinit hwf
  | .ack b => Laws.EncodeFits.ack b hwf
  | .irqmask b => Laws.EncodeFits.irqmask b hwf
  | .irqen on => Laws.EncodeFits.irqen on hwf
  | .delay imm => Laws.EncodeFits.delay imm hwf
  | .idle => Laws.EncodeFits.idle hwf
  | .ldwrap imm => Laws.EncodeFits.ldwrap imm hwf
  | .ldthr imm => Laws.EncodeFits.ldthr imm hwf

/-- Bits that a mask keeps whole are the pattern's. -/
theorem extractLsb'_of_and {n start len : Nat} {x m p : BitVec n} (h : x &&& m = p)
    (hm : m.extractLsb' start len = BitVec.allOnes len) : x.extractLsb' start len = p.extractLsb' start len := by
  rw [← h, BitVec.extractLsb'_and, hm, BitVec.and_allOnes]

/-- A piece of a piece of a word is a piece of the word. -/
theorem extractLsb'_extractLsb' {n start len start' len' : Nat} (x : BitVec n) (h : start' + len' ≤ len) :
    (x.extractLsb' start len).extractLsb' start' len' = x.extractLsb' (start + start') len' := by
  ext i hi
  rw [BitVec.getElem_extractLsb', BitVec.getElem_extractLsb', BitVec.getLsbD_extractLsb',
    decide_eq_true (by omega : start' + i < len), Bool.true_and, Nat.add_assoc]

/-- Bits of a field that a mask keeps whole are the pattern's. -/
theorem field_extractLsb'_of_and {w m p : Word} {start len start' len' : Nat} (h : w &&& m = p)
    (hle : start' + len' ≤ len) (hm : m.extractLsb' (start + start') len' = BitVec.allOnes len') :
    (w.extractLsb' start len).extractLsb' start' len' = p.extractLsb' (start + start') len' :=
  (extractLsb'_extractLsb' w hle).trans (extractLsb'_of_and h hm)

theorem exists_field_eq (x : BitVec 4) (h : x.extractLsb' 1 3 = 0#3) : ∃ ch : Channel, x = ch.field := by
  have h01 : x = 0#4 ∨ x = 1#4 := by revert x; decide
  exact h01.elim (fun h0 => ⟨.ch0, h0⟩) fun h1 => ⟨.ch1, h1⟩

theorem fits_iff {p m w : Word} {d : Bool} : (OpcodeRow.mk p m d).fits w = true ↔
    w &&& m = p ∧ (d = true → w.extractLsb' 0 8 ≠ 0#8) := by
  cases d <;> simp [OpcodeRow.fits]

/-- The word of an operation that uses the whole immediate. -/
theorem formatO_immField_of_and {w p : Word} (h : w &&& 0xFFFF0000#32 = p) :
    formatO (opField p) (chField p) (zField p) (immField w) = w :=
  formatO_eq_of_fields (extractLsb'_of_and h rfl) (extractLsb'_of_and h rfl) (extractLsb'_of_and h rfl) rfl

/-- The word of an operation that uses a channel bit set. -/
theorem formatO_chanSet_of_and {w p : Word} (h : w &&& 0xFFFFFFFC#32 = p) (hp : p.extractLsb' 2 14 = 0#14) :
    formatO (opField p) (chField p) (zField p) (0#14 ++ (immField w).extractLsb' 0 2) = w := by
  have hhigh : (immField w).extractLsb' 2 14 = 0#14 := (field_extractLsb'_of_and h (by decide) rfl).trans hp
  rw [chanSet_of_imm _ hhigh]
  exact formatO_eq_of_fields (extractLsb'_of_and h rfl) (extractLsb'_of_and h rfl) (extractLsb'_of_and h rfl) rfl

/-- The word of an operation that uses a flag. -/
theorem formatO_flag_of_and {w p : Word} (h : w &&& 0xFFFFFFFE#32 = p) (hp : p.extractLsb' 1 15 = 0#15) :
    formatO (opField p) (chField p) (zField p) (0#15 ++ BitVec.ofBool ((immField w).getLsbD 0)) = w := by
  have hhigh : (immField w).extractLsb' 1 15 = 0#15 := (field_extractLsb'_of_and h (by decide) rfl).trans hp
  rw [flag_of_imm _ hhigh]
  exact formatO_eq_of_fields (extractLsb'_of_and h rfl) (extractLsb'_of_and h rfl) (extractLsb'_of_and h rfl) rfl

/-- The channel of a word whose row leaves the low bit of `ch` open. -/
theorem exists_chField_eq_of_and {w m p : Word} (h : w &&& m = p) (hm : m.extractLsb' 25 3 = BitVec.allOnes 3)
    (hp : p.extractLsb' 25 3 = 0#3) : ∃ ch : Channel, chField w = ch.field :=
  exists_field_eq _ ((field_extractLsb'_of_and h (by decide) hm).trans hp)

/-- A word that fits a row of the table is the word of an operation of that row. -/
theorem exists_encode_of_fits {w : Word} {r : OpcodeRow} (hr : r ∈ opcodeTable) (h : r.fits w = true) :
    ∃ i : Instr, i.row = r ∧ encode i = w ∧ i.wf = true := by
  fin_cases hr <;> obtain ⟨hw, hd⟩ := fits_iff.1 h
  · exact ⟨.calculate (immField w), rfl, (formatO_immField_of_and hw :), rfl⟩
  · obtain ⟨ch, hch⟩ := exists_chField_eq_of_and hw rfl rfl
    exact ⟨.apply ch, rfl, formatO_eq_of_fields (extractLsb'_of_and hw rfl) hch (extractLsb'_of_and hw rfl)
      (extractLsb'_of_and hw rfl), rfl⟩
  · obtain ⟨ch, hch⟩ := exists_chField_eq_of_and hw rfl rfl
    exact ⟨.setduty ch (immField w), rfl, formatO_eq_of_fields (extractLsb'_of_and hw rfl) hch
      (extractLsb'_of_and hw rfl) rfl, rfl⟩
  · obtain ⟨ch, hch⟩ := exists_chField_eq_of_and hw rfl rfl
    obtain ⟨himm, -⟩ := divisor_of_imm (immField w) (field_extractLsb'_of_and hw (by decide) rfl)
    have hdiv : (immField w).extractLsb' 0 8 ≠ 0#8 := by
      rw [immField, extractLsb'_extractLsb' w (by decide)]
      exact hd rfl
    exact ⟨.setdiv ch ((immField w).extractLsb' 0 8), rfl, formatO_eq_of_fields (extractLsb'_of_and hw rfl) hch
      (extractLsb'_of_and hw rfl) himm.symm, by simpa [Instr.wf] using hdiv⟩
  · exact ⟨.tick, rfl, hw.symm.trans BitVec.and_allOnes, rfl⟩
  · exact ⟨.reinit, rfl, hw.symm.trans BitVec.and_allOnes, rfl⟩
  · exact ⟨.ack ((immField w).extractLsb' 0 2), rfl, (formatO_chanSet_of_and hw rfl :), rfl⟩
  · exact ⟨.irqmask ((immField w).extractLsb' 0 2), rfl, (formatO_chanSet_of_and hw rfl :), rfl⟩
  · exact ⟨.irqen ((immField w).getLsbD 0), rfl, (formatO_flag_of_and hw rfl :), rfl⟩
  · exact ⟨.delay (immField w), rfl, (formatO_immField_of_and hw :), rfl⟩
  · exact ⟨.idle, rfl, hw.symm.trans BitVec.and_allOnes, rfl⟩
  · exact ⟨.ldwrap (immField w), rfl, (formatO_immField_of_and hw :), rfl⟩
  · exact ⟨.ldthr (immField w), rfl, (formatO_immField_of_and hw :), rfl⟩

/-! ## Why a word is refused (30_encoding.md R70 to R74) -/

/-- The reason a word is refused for; none for one that decodes. -/
def refusalOf : Except IllegalReason Instr → Option IllegalReason
  | .ok _ => none
  | .error e => some e

theorem refusalOf_eq_some {x : Except IllegalReason Instr} {e : IllegalReason} : refusalOf x = some e ↔ x = .error e := by
  cases x <;> simp [refusalOf]

@[simp] theorem refusalOf_ok (i : Instr) : refusalOf (.ok i) = none := rfl

@[simp] theorem refusalOf_error (e : IllegalReason) : refusalOf (.error e) = some e := rfl

/-- A check that hands on what it read where `p` holds refuses where `q` does, `q` being the rule's own words. -/
theorem refusalOf_ite_error {p q : Prop} [Decidable p] [Decidable q] (h : p ↔ ¬q) (k : Except IllegalReason Instr)
    (e : IllegalReason) : refusalOf (if p then k else .error e) = if q then some e else refusalOf k := by
  by_cases hq : q <;> simp [h, hq]

theorem refusalOf_zeroZ (w : Word) (k : Except IllegalReason Instr) :
    refusalOf (zeroZ w k) = if zNat w ≠ 0 then some .reservedBits else refusalOf k :=
  refusalOf_ite_error (by simp [← BitVec.toNat_inj]) _ _

theorem refusalOf_zeroCh (w : Word) (k : Except IllegalReason Instr) :
    refusalOf (zeroCh w k) = if chNat w ≠ 0 then some .reservedBits else refusalOf k :=
  refusalOf_ite_error (by simp [← BitVec.toNat_inj]) _ _

theorem refusalOf_zeroImm (w : Word) (k : Except IllegalReason Instr) :
    refusalOf (zeroImm w k) = if immNat w ≠ 0 then some .reservedBits else refusalOf k :=
  refusalOf_ite_error (by simp [← BitVec.toNat_inj]) _ _

/-- A channel 2 or more is refused (R73), and each other number is its channel. -/
theorem refusalOf_readCh (w : Word) (k : Channel → Except IllegalReason Instr) :
    refusalOf (readCh w k) = if chNat w > 1 then some .badChannel
      else refusalOf (k (if chNat w = 0 then .ch0 else .ch1)) := by
  simp only [readCh, ← BitVec.toNat_inj, chField_toNat, BitVec.toNat_ofNat, Nat.reducePow, Nat.reduceMod]
  obtain h | h | h : chNat w = 0 ∨ chNat w = 1 ∨ 1 < chNat w := by omega
  · simp [h]
  · simp [h]
  · simp [h, show chNat w ≠ 0 by omega, show chNat w ≠ 1 by omega]

/-- The unused upper part of an immediate, as a natural. -/
theorem immField_extractLsb'_toNat (w : Word) {start len : Nat} (h : start + len = 16) :
    ((immField w).extractLsb' start len).toNat = immNat w / 2 ^ start := by
  have himm : immNat w < 2 ^ start * 2 ^ len := by
    rw [← pow_add, h]
    exact Nat.mod_lt _ (by decide)
  rw [BitVec.extractLsb'_toNat, immField_toNat, Nat.shiftRight_eq_div_pow,
    Nat.mod_eq_of_lt (Nat.div_lt_of_lt_mul himm)]

theorem refusalOf_readChanSet (w : Word) (k : BitVec 2 → Except IllegalReason Instr) :
    refusalOf (readChanSet w k) = if immNat w / 2 ^ 2 ≠ 0 then some .reservedBits
      else refusalOf (k ((immField w).extractLsb' 0 2)) :=
  refusalOf_ite_error (by simp [← BitVec.toNat_inj, immField_extractLsb'_toNat w (start := 2) (len := 14) rfl]) _ _

theorem refusalOf_readFlag (w : Word) (k : Bool → Except IllegalReason Instr) :
    refusalOf (readFlag w k) = if immNat w / 2 ≠ 0 then some .reservedBits
      else refusalOf (k ((immField w).getLsbD 0)) :=
  refusalOf_ite_error (by simp [← BitVec.toNat_inj, immField_extractLsb'_toNat w (start := 1) (len := 15) rfl]) _ _

theorem refusalOf_readDivisor (w : Word) (k : BitVec 8 → Except IllegalReason Instr) :
    refusalOf (readDivisor w k) = if immNat w / 2 ^ 8 ≠ 0 ∨ immNat w = 0 then some .badImmediate
      else refusalOf (k ((immField w).extractLsb' 0 8)) :=
  refusalOf_ite_error (by simp [← BitVec.toNat_inj, immField_extractLsb'_toNat w (start := 8) (len := 8) rfl]) _ _

/-- The decoder refuses by R70's checks in R70's order. -/
theorem refusalOf_decode (w : Word) : refusalOf (decode w) = refusalOrder w := by
  unfold decode
  split <;> rename_i hop
  case h_14 => -- the reserved codes
    have hres : opNat w = 0x0 ∨ opNat w = 0xE ∨ opNat w = 0xF := by
      simp only [imp_false, ← BitVec.toNat_inj, opField_toNat, BitVec.toNat_ofNat, Nat.reducePow, Nat.reduceMod] at *
      have hlt := opNat_lt w
      omega
    rw [refusalOf_error, refusalOrder, if_pos hres]
  all_goals -- the operation's own checks, with the others of R70 out of reach for its code
    have hnat := congrArg BitVec.toNat hop
    rw [opField_toNat] at hnat
    simp [refusalOrder, hnat, refusalOf_zeroZ, refusalOf_zeroCh, refusalOf_zeroImm, refusalOf_readCh,
      refusalOf_readChanSet, refusalOf_readFlag, refusalOf_readDivisor]

theorem decode_eq_error_iff {w : Word} {e : IllegalReason} : decode w = .error e ↔ refusalOrder w = some e := by
  rw [← refusalOf_decode, refusalOf_eq_some]

namespace Machine

/-- A program with an illegal word under a well-formed configuration: the verdict names an illegal word. -/
theorem verdict_of_illegal {s : State} {w : Word} {e : IllegalReason} (hwf : s.cfg.wf = true) (hw : w ∈ s.prog)
    (h : decode w = .error e) : ∃ e', s.verdict = some (.illegalWord e') := by
  have hne : firstIllegal s.prog ≠ none := fun hnone => by
    obtain ⟨i, hi⟩ := (firstIllegal_eq_none s.prog).1 hnone w hw
    exact nomatch h.symm.trans hi
  obtain ⟨e', he'⟩ := Option.ne_none_iff_exists'.1 hne
  exact ⟨e', by simp [State.verdict, hwf, he']⟩

end Machine

/-! ## The statements -/

/-- Settles O1: an operation's word has its code in `op`, so the decoder takes the operation's arm, and every check of
that arm passes on the fields the encoder wrote. -/
theorem decodeOfEncodeIsTheInstruction : Obligations.DecodeOfEncodeIsTheInstruction := decode_encode

/-- Settles O2: arm by arm, the checks fix every bit of the word but the operands' own. -/
theorem encodeOfDecodeIsTheWord : Obligations.EncodeOfDecodeIsTheWord := fun _ _ => encode_of_decode

/-- Settles O3: a word that decodes is an encoding, which fits its row; a word that fits a row is an encoding. -/
theorem decodingIsFittingATableRow : Obligations.DecodingIsFittingATableRow := by
  constructor
  · intro w i h
    obtain ⟨rfl, hwf⟩ := encode_of_decode h
    exact ⟨row_mem_opcodeTable i, row_fits_encode i hwf⟩
  · intro w r hr h
    obtain ⟨i, hrow, henc, hwf⟩ := exists_encode_of_fits hr h
    exact ⟨i, decode_eq_ok_iff.2 ⟨henc, hwf⟩, hrow⟩

/-- Settles O4: the reason of each check of the decoder, read off the word's fields as naturals. -/
theorem illegalWordsAreRefusedByName : Obligations.IllegalWordsAreRefusedByName := fun _ _ => decode_eq_error_iff

/-- Settles O5: a word that decodes is an encoding, and the encoder writes the code and the operands as they are. -/
theorem operandsAreTheWordsFields : Obligations.OperandsAreTheWordsFields := by
  intro w i h
  obtain ⟨rfl, -⟩ := encode_of_decode h
  exact fields_encode i

/-- Settles O44: the verdict names an illegal word, and step refuses what the verdict names. -/
theorem programWithAnIllegalWordHasNoRun : Obligations.ProgramWithAnIllegalWordHasNoRun := by
  intro s w e hwf hw h
  obtain ⟨e', he'⟩ := verdict_of_illegal hwf hw h
  exact ⟨e', (step_refused_iff s _).2 he'⟩

/-- Settles O46: the verdict is clear, so the agent whose turn it is takes its step. -/
theorem admittedMachineNeverStops : Obligations.AdmittedMachineNeverStops :=
  fun s hwf hprog => step_next_of_verdict ((verdict_eq_none s).2 ⟨hwf, hprog⟩)

/-- Settles O6: each operation of the table is well formed and encodes to its word, so the word decodes to it. -/
theorem specWordsDecode : Obligations.SpecWordsDecode := by
  intro p hp
  have henc : encode p.1 = p.2 ∧ p.1.wf = true := by revert p; decide
  exact ⟨decode_eq_ok_iff.2 henc, henc.1⟩

end Sys2Proof

/-! # Scope: the calculator's threshold, the duty-setting path, a whole handler

The threshold is a truncated division whose bounds come from the product's; SETDUTY and phases 2 and 3 are one path; and a
handler with TIMER steps inside it is, but for what the TIMER writes, the handler without them. -/

namespace Sys2Proof

open Sys2Proof.Machine Sys2Proof.Stated

/-! ## The calculator (40_calculator.md R90 to R98) -/

theorem Config.product_of_exact {c : Config} {p : Nat} (h : ExactProduct c p) : c.product p = c.wrapValue * p := by
  unfold Config.product
  cases hw : c.productWidth with
  | exact => rfl
  | bits32 => exact Nat.mod_eq_of_lt (h.resolve_left (by simp [hw]))

theorem Config.calcThr_of_exact {c : Config} {p : Nat} (h : ExactProduct c p) :
    c.calcThr p = c.wrapValue * p / c.periodUs := by
  rw [Config.calcThr, Config.product_of_exact h]

/-- A threshold is at most the exact quotient, under either product width. -/
theorem Config.calcThr_le_div (c : Config) (p : Nat) : c.calcThr p ≤ c.wrapValue * p / c.periodUs :=
  Nat.div_le_div_right (c.product_le p)

@[simp] theorem Config.calcThr_zero (c : Config) : c.calcThr 0 = 0 :=
  Nat.le_zero.1 (by simpa using c.calcThr_le_div 0)

/-- With 16-bit registers and a 16-bit width the product stays below 2^32 (R95). -/
theorem Config.wrapValue_mul_lt {c : Config} (hwf : c.wf = true) (hr : c.regWidth = 16) {p : Nat} (hp : p < 2 ^ 16) :
    c.wrapValue * p < 2 ^ 32 := by
  have hw : c.wrapValue < 2 ^ 16 := hr ▸ c.wrapValue_lt hwf
  calc c.wrapValue * p < 2 ^ 16 * 2 ^ 16 := Nat.mul_lt_mul'' hw hp
    _ = 2 ^ 32 := by norm_num

/-- The statements' threshold is the model's. -/
theorem thresholdOf_eq_calcThr (c : Config) (p : Nat) : thresholdOf c p = c.calcThr p := by
  unfold thresholdOf Config.calcThr Config.product
  cases c.productWidth <;> rfl

/-- The statements' narrowing at the entry of the path is the model's. -/
theorem pathValue_eq_narrowP (c : Config) (v : Nat) : pathValue c v = c.narrowP v := by
  unfold pathValue Config.narrowP
  cases c.pathWidth <;> rfl

namespace Machine

/-! ## The duty-setting path (41_channel.md R101 to R104) -/

/-- The channel write does what the statements say of it, branch by branch. -/
theorem pairApplied_of_chan {s t : State} {ch : Channel} {w x : Nat} (h : t.chan ch = (s.chan ch).apply s.cfg w x) :
    PairApplied ch w x s t := by
  unfold PairApplied
  rw [h]
  refine ⟨ChannelRegs.apply_wrap .., ChannelRegs.apply_cc .., ChannelRegs.apply_en .., fun hen => ?_, fun hen => ?_⟩
  · rw [ChannelRegs.apply_of_disabled _ _ _ _ hen]
    exact ⟨rfl, rfl, rfl⟩
  · cases hm : s.cfg.updateMode with
    | immediate => rw [ChannelRegs.apply_of_immediate _ _ _ _ hen hm]; exact ⟨rfl, fun _ => ⟨rfl, rfl⟩, nofun⟩
    | atWrap => rw [ChannelRegs.apply_of_atWrap _ _ _ _ hen hm]; exact ⟨rfl, nofun, fun _ => ⟨rfl, rfl⟩⟩

/-- The compare value the path programs, in the statements' words. -/
theorem ChannelRegs.apply_cc_eq_thresholdOf (cfg : Config) (w v : Nat) (c : ChannelRegs) :
    (c.apply cfg w (cfg.calcThr (cfg.narrowP v))).cc = thresholdOf cfg (pathValue cfg v) % 2 ^ cfg.regWidth := by
  rw [ChannelRegs.apply_cc, thresholdOf_eq_calcThr, pathValue_eq_narrowP, Config.narrowReg]

/-- The threshold latched by the path, in the statements' words. -/
theorem State.setduty_calcThr_eq_thresholdOf (s : State) (ch : Channel) (v : Nat) :
    (s.setduty ch v).calcThr = thresholdOf s.cfg (pathValue s.cfg v) := by
  rw [State.setduty_calcThr, thresholdOf_eq_calcThr, pathValue_eq_narrowP]

/-- The path applies the pair it has latched. -/
theorem State.setduty_pairApplied (s : State) (ch : Channel) (v : Nat) :
    PairApplied ch (s.setduty ch v).calcWrap (s.setduty ch v).calcThr s (s.setduty ch v) :=
  pairApplied_of_chan (by simp)

/-- A pair applied is seen in the channel's registers only. -/
theorem PairApplied.of_chan_eq {ch : Channel} {w x : Nat} {s t u : State} (h : PairApplied ch w x s t)
    (hchan : u.chan ch = t.chan ch) : PairApplied ch w x s u := by
  unfold PairApplied at h ⊢
  rwa [hchan]

/-- A phase that sends a value down the path and goes on to phase `p` (60_exceptions.md R163, R164). -/
theorem State.setduty_toPhase_result (s : State) (ch : Channel) (v : Nat) (p : IsrPhase) :
    let t := (s.setduty ch v).toPhase p
    t.isrPhase = p ∧ t.calcWrap = s.cfg.wrapValue ∧ t.calcThr = thresholdOf s.cfg (pathValue s.cfg v) ∧
      PairApplied ch t.calcWrap t.calcThr s t ∧
      SameBut (.calcWrap :: .calcThr :: applyWrites ch ++ [.isrPhase]) s t :=
  ⟨rfl, s.setduty_calcWrap ch v, s.setduty_calcThr_eq_thresholdOf ch v,
    PairApplied.of_chan_eq (s.setduty_pairApplied ch v) (State.toPhase_chan ..),
    (s.setduty_sameBut ch v).comp (State.toPhase_sameBut ..)⟩

/-! ## TIMER steps inside the handler (20_memory.md R59) -/

theorem ticks_sameBut (n : Nat) (s : State) : SameBut timerWrites s (ticks n s) := by
  induction n with
  | zero => exact .refl _ s
  | succ n ih =>
    have hticks : ticks (n + 1) s = (ticks n s).timerStep := Function.iterate_succ_apply' ..
    exact hticks ▸ ih.trans (State.timerStep_sameBut _)

theorem State.sequencerStep_of_inHandler (s : State) (h : s.inHandler = true) : s.sequencerStep = s.isrStep :=
  if_pos h

/-- A phase after any number of TIMER steps differs from the phase at once in what the TIMER writes only. -/
theorem sequencerStep_ticks_sameBut {s s' : State} (h : SameBut timerWrites s s') (hin : s.inHandler = true) (n : Nat) :
    SameBut timerWrites s.isrStep (ticks n s').sequencerStep := by
  have hticks : SameBut timerWrites s (ticks n s') := h.trans (ticks_sameBut n s')
  rw [State.sequencerStep_of_inHandler _ ((hticks.inHandler (by decide)).trans hin)]
  exact isrStep_sameBut_timerWrites hticks

/-! ## A whole handler (60_exceptions.md R160 to R165) -/

/-- What the five phases do with no TIMER step between them. -/
def State.handled (s : State) : State :=
  ((s.tick.isrAck.setduty .ch0 s.tick.servoOut.toNat).setduty .ch1 s.tick.ledOut.toNat).isrReturn

/-- The sweep reads neither the conditions nor the phase (42_sweep.md R129). -/
theorem State.tickInit_isrAck_toPhase (s : State) (p : IsrPhase) :
    (s.isrAck.toPhase p).tickInit = s.tickInit.isrAck.toPhase p := by
  unfold State.tickInit; split <;> simp_all [State.isrAck, State.toPhase]

theorem State.tickAdvance_isrAck_toPhase (s : State) (p : IsrPhase) :
    (s.isrAck.toPhase p).tickAdvance = s.tickAdvance.isrAck.toPhase p := by
  unfold State.tickAdvance; split <;> simp_all [State.isrAck, State.toPhase]

theorem State.tick_isrAck_toPhase (s : State) (p : IsrPhase) :
    (s.isrAck.toPhase p).tick = s.tick.isrAck.toPhase p := by
  unfold State.tick
  rw [s.tickInit_isrAck_toPhase]
  exact s.tickInit.tickEmit.tickAdvance_isrAck_toPhase p

/-- The path does not read the phase. -/
theorem State.setduty_of_toPhase (s : State) (ch : Channel) (v : Nat) (p : IsrPhase) :
    (s.toPhase p).setduty ch v = (s.setduty ch v).toPhase p := by
  cases ch <;> rfl

theorem State.isrReturn_of_toPhase (s : State) (p : IsrPhase) : (s.toPhase p).isrReturn = s.isrReturn := rfl

/-- Run one after the other from phase 0, the five phases do just that (60_exceptions.md R160). -/
theorem State.isrStep_five (s : State) (hp : s.isrPhase = .ack) :
    s.isrStep.isrStep.isrStep.isrStep.isrStep = s.handled := by
  rw [s.isrStep_of_ack hp, State.isrStep_of_tick _ (State.toPhase_isrPhase ..), s.tick_isrAck_toPhase,
    State.isrStep_of_servo _ (State.toPhase_isrPhase ..), State.isrStep_of_led _ (State.toPhase_isrPhase ..),
    State.isrStep_of_ret _ (State.toPhase_isrPhase ..)]
  simp only [State.handled, State.setduty_of_toPhase, State.isrReturn_of_toPhase, State.toPhase_servoOut,
    State.toPhase_ledOut, State.setduty_ledOut, State.isrAck_servoOut, State.isrAck_ledOut]

/-- From phase 0 the handler with TIMER steps before each phase ends where the five phases alone do, but for what the
TIMER writes. -/
theorem handled_sameBut_handler {s : State} (hin : s.inHandler = true) (hp : s.isrPhase = .ack) (n0 n1 n2 n3 n4 : Nat) :
    SameBut timerWrites s.handled
      (ticks n4 (ticks n3 (ticks n2 (ticks n1 (ticks n0 s).sequencerStep).sequencerStep).sequencerStep
        ).sequencerStep).sequencerStep := by
  have hack := sequencerStep_ticks_sameBut (.refl _ s) hin n0
  have htick := sequencerStep_ticks_sameBut hack (by simp [State.isrStep_inHandler, hin, hp]) n1
  have hservo := sequencerStep_ticks_sameBut htick
    (by simp [State.isrStep_inHandler, State.isrStep_isrPhase, hin, hp]) n2
  have hled := sequencerStep_ticks_sameBut hservo
    (by simp [State.isrStep_inHandler, State.isrStep_isrPhase, hin, hp]) n3
  have hret := sequencerStep_ticks_sameBut hled
    (by simp [State.isrStep_inHandler, State.isrStep_isrPhase, hin, hp]) n4
  exact s.isrStep_five hp ▸ hret

/-- Beside the sweep the phases write the conditions, the latches, the channels and the handler's own registers. -/
def handledWrites : List Reg :=
  [.intRaw] ++ (.calcWrap :: .calcThr :: applyWrites .ch0) ++ (.calcWrap :: .calcThr :: applyWrites .ch1) ++
    [.inHandler, .isrPhase]

theorem State.handled_sameBut (s : State) : SameBut handledWrites s.tick s.handled :=
  ((s.tick.isrAck_sameBut.comp (State.setduty_sameBut ..)).comp (State.setduty_sameBut ..)).comp
    (State.isrReturn_sameBut _)

theorem State.handled_ch0 (s : State) : s.handled.ch0 =
    s.ch0.apply s.cfg s.cfg.wrapValue (s.cfg.calcThr (s.cfg.narrowP s.tick.servoOut.toNat)) := by
  simp [State.handled]

theorem State.handled_ch1 (s : State) : s.handled.ch1 =
    s.ch1.apply s.cfg s.cfg.wrapValue (s.cfg.calcThr (s.cfg.narrowP s.tick.ledOut.toNat)) := by
  simp [State.handled]

end Machine

namespace Safety

open Sys2Proof.Machine Sys2Proof.Stated

/-! ## The statements -/

/-- Settles O40: up to what the TIMER writes, which none of these registers is, the state reached is that of the five
phases alone. -/
theorem handlerRunsOneTickUnderAnyTimerSteps : Obligations.HandlerRunsOneTickUnderAnyTimerSteps := by
  rintro s n0 n1 n2 n3 n4 hin hp t rfl
  have hframe := handled_sameBut_handler hin hp n0 n1 n2 n3 n4
  set t := (ticks n4 _).sequencerStep
  have hread : ∀ r, r ∉ handledWrites ++ timerWrites → t.read r = s.tick.read r :=
    (s.handled_sameBut.comp hframe).1
  have hservo : t.servoOut.toNat = s.tick.servoOut.toNat := hread .servoOut (by decide)
  have hled : t.ledOut.toNat = s.tick.ledOut.toNat := hread .ledOut (by decide)
  have hcc0 : t.ch0.cc = s.handled.ch0.cc := hframe.1 (.cc .ch0) (by decide)
  have hcc1 : t.ch1.cc = s.handled.ch1.cc := hframe.1 (.cc .ch1) (by decide)
  have hen0 : t.ch0.en = s.handled.ch0.en := hframe.en (ch := .ch0) (by decide)
  have hen1 : t.ch1.en = s.handled.ch1.en := hframe.en (ch := .ch1) (by decide)
  refine ⟨hframe.inHandler (by decide), fun r hr => hread r ?_, ?_, ?_, ?_, ?_, fun r hr => ?_⟩
  · revert r; decide
  · rw [hen0, s.handled_ch0, ChannelRegs.apply_en]
  · rw [hcc0, hservo, s.handled_ch0, ChannelRegs.apply_cc_eq_thresholdOf]
  · rw [hen1, s.handled_ch1, ChannelRegs.apply_en]
  · rw [hcc1, hled, s.handled_ch1, ChannelRegs.apply_cc_eq_thresholdOf]
  · have hrest : r ∉ handledWrites ++ timerWrites ∧ r ∉ sweepWrites := by revert r; decide
    exact (hread r hrest.1).trans (s.tick_sameBut.1 r hrest.2)

/-- Settles O38: in the handler the sequencer runs a phase, and these two send an output down the duty-setting path. -/
theorem phasesTwoAndThreeApplyTheOutputs : Obligations.PhasesTwoAndThreeApplyTheOutputs := by
  constructor
  · intro s hin hp
    exact ⟨_, s.isrStep_of_servo hp ▸ agentStep_isr_of_inHandler s hin, s.setduty_toPhase_result .ch0 _ .led⟩
  · intro s hin hp
    exact ⟨_, s.isrStep_of_led hp ▸ agentStep_isr_of_inHandler s hin, s.setduty_toPhase_result .ch1 _ .ret⟩

/-- Settles O9: the quotient is at most that of the product with the whole period. -/
theorem thresholdWithinWrapUpToThePeriod : Obligations.ThresholdWithinWrapUpToThePeriod := by
  intro c p hwf hp
  calc c.calcThr p ≤ c.wrapValue * p / c.periodUs := c.calcThr_le_div p
    _ ≤ c.wrapValue * c.periodUs / c.periodUs := Nat.div_le_div_right (Nat.mul_le_mul_left _ hp)
    _ = c.wrapValue := Nat.mul_div_cancel _ (c.periodUs_pos hwf)

/-- Settles O10: one microsecond past the period adds WRAP to the product, which is a whole period or less than one. -/
theorem thresholdExceedsWrapPastThePeriod : Obligations.ThresholdExceedsWrapPastThePeriod := by
  refine ⟨fun c p hwf hex hp hle => ?_, fun c hwf hex hlt => ?_⟩
  · rw [Config.calcThr_of_exact hex, ← Nat.succ_le_iff, Nat.le_div_iff_mul_le (c.periodUs_pos hwf)]
    calc (c.wrapValue + 1) * c.periodUs = c.wrapValue * c.periodUs + c.periodUs := Nat.succ_mul ..
      _ ≤ c.wrapValue * (c.periodUs + 1) := Nat.add_le_add_left hle _
      _ ≤ c.wrapValue * p := Nat.mul_le_mul_left _ hp
  · rw [Config.calcThr_of_exact hex, Nat.mul_succ, Nat.mul_comm, Nat.mul_add_div (c.periodUs_pos hwf),
      Nat.div_eq_of_lt hlt, Nat.add_zero]

/-- Settles O11: a product that is exact at the larger width bounds that at the smaller. -/
theorem thresholdIsMonotone : Obligations.ThresholdIsMonotone := by
  refine fun c hwf => ⟨fun p q hex hle => ?_, c.calcThr_zero, fun hex => ?_⟩
  · calc c.calcThr p ≤ c.wrapValue * p / c.periodUs := c.calcThr_le_div p
      _ ≤ c.wrapValue * q / c.periodUs := Nat.div_le_div_right (Nat.mul_le_mul_left _ hle)
      _ = c.calcThr q := (Config.calcThr_of_exact hex).symm
  · rw [Config.calcThr_of_exact hex, Nat.mul_div_cancel _ (c.periodUs_pos hwf)]

/-- Settles O12: the product of a 16-bit WRAP and a 16-bit width fits 32 bits, so both product widths agree on it. -/
theorem thirtyTwoBitDatapathIsExact : Obligations.ThirtyTwoBitDatapathIsExact := by
  refine ⟨fun c p hwf hr hp => ?_, fun c p h => ?_⟩
  · have hmul := Config.wrapValue_mul_lt hwf hr hp
    exact ⟨hmul, Config.calcThr_of_exact (.inr hmul), c.calcThr_lt hwf hr hp⟩
  · rw [Config.calcThr, Config.product, h]

/-- Settles O8: the latch, with the statement's threshold read as the model's. -/
theorem calcLatchesThePair : Obligations.CalcLatchesThePair := by
  intro imm s
  exact ⟨(s.latchCalc imm.toNat).hostNext, rfl, rfl, (thresholdOf_eq_calcThr ..).symm, rfl,
    (s.latchCalc_sameBut _).comp (State.hostNext_sameBut _)⟩

/-- Settles O14: the duty-setting path with an immediate, which the narrowing leaves alone. -/
theorem setdutyCalculatesAndApplies : Obligations.SetdutyCalculatesAndApplies := by
  intro ch imm s
  refine ⟨(s.setduty ch imm.toNat).hostNext, rfl, s.setduty_calcWrap ch _, ?_,
    PairApplied.of_chan_eq (s.setduty_pairApplied ch _) (State.hostNext_chan ..), by simp,
    (s.setduty_sameBut ch _).comp (State.hostNext_sameBut _)⟩
  rw [State.hostNext_calcThr, State.setduty_calcThr_eq_thresholdOf, pathValue_eq_narrowP, Config.narrowP_zext16]

end Safety

end Sys2Proof

/-! # Scope: the channel operations

A second identical write finds its pair latched and the channel holding it, so it changes nothing; an operation reaches
no channel but the one it names; and the results and frames of APPLY, SETDIV and the latch loads. -/

namespace Sys2Proof

namespace Machine

open Sys2Proof.Stated

/-! ## What each operation answers (41_channel.md R100, R104 to R107) -/

theorem exec_apply (ch : Channel) (s : State) : exec (.apply ch) s = .next (s.applyLatched ch).hostNext := rfl

theorem exec_setduty (ch : Channel) (imm : BitVec 16) (s : State) :
    exec (.setduty ch imm) s = .next (s.setduty ch imm.toNat).hostNext := rfl

theorem exec_setdiv (ch : Channel) (d : BitVec 8) (s : State) :
    exec (.setdiv ch d) s = .next (s.setChan ch { s.chan ch with div := d }).hostNext := rfl

theorem exec_ldwrap (imm : BitVec 16) (s : State) :
    exec (.ldwrap imm) s = .next { s with calcWrap := imm.toNat }.hostNext := rfl

theorem exec_ldthr (imm : BitVec 16) (s : State) :
    exec (.ldthr imm) s = .next { s with calcThr := imm.toNat }.hostNext := rfl

/-! ## The same write twice (41_channel.md R108) -/

/-- A channel left enabled by a write takes the same pair again without change: under `IMMEDIATE` the active copies are
already the programmed ones, under `AT_WRAP` they are not touched. -/
theorem ChannelRegs.apply_apply_same (cfg : Config) (w t : Nat) (c : ChannelRegs) :
    (c.apply cfg w t).apply cfg w t = c.apply cfg w t := by
  cases hm : cfg.updateMode with
  | immediate =>
    rw [ChannelRegs.apply_of_immediate _ _ _ (c.apply cfg w t) (ChannelRegs.apply_en ..) hm]
    cases hen : c.en with
    | false => rw [ChannelRegs.apply_of_disabled _ _ _ _ hen]
    | true => rw [ChannelRegs.apply_of_immediate _ _ _ _ hen hm]
  | atWrap =>
    rw [ChannelRegs.apply_of_atWrap _ _ _ (c.apply cfg w t) (ChannelRegs.apply_en ..) hm,
      ← ChannelRegs.apply_wrap cfg w t c, ← ChannelRegs.apply_cc cfg w t c]

@[simp] theorem State.setChan_chan_self (s : State) (ch : Channel) : s.setChan ch (s.chan ch) = s := by
  cases ch <;> rfl

/-- Applying a latched pair that the channel already holds changes nothing. -/
theorem State.applyLatched_eq_self {s : State} {ch : Channel}
    (h : (s.chan ch).apply s.cfg s.calcWrap s.calcThr = s.chan ch) : s.applyLatched ch = s := by
  rw [State.applyLatched, State.applyPair, h, State.setChan_chan_self]

/-- Latching a pair that is already latched changes nothing. -/
theorem State.latchCalc_eq_self {s : State} {p : Nat} (hw : s.calcWrap = s.cfg.wrapValue)
    (ht : s.calcThr = s.cfg.calcThr p) : s.latchCalc p = s := by
  rw [State.latchCalc, ← hw, ← ht]

/-- APPLY twice (R108). -/
theorem State.applyLatched_hostNext_applyLatched (s : State) (ch : Channel) :
    (s.applyLatched ch).hostNext.applyLatched ch = (s.applyLatched ch).hostNext :=
  State.applyLatched_eq_self (by simp [ChannelRegs.apply_apply_same])

/-- The duty-setting path twice: a pair depends on the configuration and the value alone (R104, R108). -/
theorem State.setduty_hostNext_setduty (s : State) (ch : Channel) (v : Nat) :
    (s.setduty ch v).hostNext.setduty ch v = (s.setduty ch v).hostNext := by
  have hlatch : (s.setduty ch v).hostNext.latchCalc (s.cfg.narrowP v) = (s.setduty ch v).hostNext :=
    State.latchCalc_eq_self (by simp) (by simp)
  rw [State.setduty, State.hostNext_cfg, State.setduty_cfg, hlatch]
  exact State.applyLatched_hostNext_applyLatched _ ch

/-! ## The other channel (41_channel.md R110) -/

/-- An operation that does not name a channel leaves it: APPLY, SETDUTY and SETDIV write their own, the others none. -/
theorem exec_chan_of_ne {i : Instr} {s t : State} {ch : Channel} (h : exec i s = .next t) (hne : chanOf i ≠ some ch) :
    t.chan ch = s.chan ch := by
  have hother {ch' : Channel} (hi : chanOf i = some ch') : ch ≠ ch' := fun he => hne (he ▸ hi)
  cases i with
  | apply ch' => cases h; exact s.applyLatched_chan_of_ne _ _ (hother rfl)
  | setduty ch' imm => cases h; exact s.setduty_chan_of_ne _ _ _ (hother rfl)
  | setdiv ch' d => cases h; exact s.chan_setChan_of_ne _ _ _ (hother rfl)
  | tick => cases h; exact s.tick_chan ch
  | _ => cases h; cases ch <;> rfl

end Machine

namespace Safety

open Sys2Proof.Machine Sys2Proof.Stated

/-! ## The statements -/

/-- Settles O17: the second operation finds its pair latched and its channel holding that pair. -/
theorem applyAndSetdutyAreIdempotent : Obligations.ApplyAndSetdutyAreIdempotent := by
  intro ch imm s i hi
  obtain rfl | rfl : i = .apply ch ∨ i = .setduty ch imm := by simpa using hi
  · exact ⟨_, exec_apply .., by rw [exec_apply, State.applyLatched_hostNext_applyLatched]; rfl⟩
  · exact ⟨_, exec_setduty .., by rw [exec_setduty, State.setduty_hostNext_setduty]; rfl⟩

/-- Settles O18: the three operations on a channel write that channel only, and no other operation writes one. -/
theorem channelsAreIndependent : Obligations.ChannelsAreIndependent := fun _ _ _ _ => exec_chan_of_ne

/-- Settles O13: the channel write with the latched pair. -/
theorem applyWritesTheLatchedPair : Obligations.ApplyWritesTheLatchedPair := by
  intro ch s
  exact ⟨_, exec_apply .., pairApplied_of_chan (by simp), by simp,
    (s.applyLatched_sameBut ch).comp (State.hostNext_sameBut _)⟩

/-- Settles O15: a read of the channel just written; the frame is SETDIV's row of R22. -/
theorem setdivWritesThePrescaler : Obligations.SetdivWritesThePrescaler := by
  intro ch d s
  have hexec := exec_setdiv ch d s
  exact ⟨_, hexec, by simp, exec_hpc hexec, exec_sameBut hexec⟩

/-- Settles O16: the latch read back is the immediate; the frames are the rows of R22. -/
theorem latchLoadsTakeTheImmediate : Obligations.LatchLoadsTakeTheImmediate := by
  intro imm s
  have hwrap := exec_ldwrap imm s
  have hthr := exec_ldthr imm s
  exact ⟨⟨_, hwrap, rfl, exec_hpc hwrap, exec_sameBut hwrap⟩,
    ⟨_, hthr, rfl, exec_hpc hthr, exec_sameBut hthr⟩⟩

end Safety

end Sys2Proof

/-! # Scope: the sweep, one tick and whole runs of ticks

One tick meets the statements' SweepStepped wherever LOWER and STEP fit 16 bits; under the default parameters the state
after `k` ticks is then known from `k` alone, and the statements about runs of ticks are read off that. -/

namespace Sys2Proof

/-- A well-formed configuration leaves room for `STEP` below `LOWER` and, in 16 bits, above `UPPER` (R17). -/
theorem Config.sweep_bounds {c : Config} (hwf : c.wf = true) :
    c.stepUs ≤ c.lower ∧ c.lower < c.upper ∧ c.upper + c.stepUs < 2 ^ 16 := by
  obtain ⟨-, -, -, -, -, ⟨hsl, hlu⟩, htop⟩ := c.wf_iff.1 hwf
  omega

namespace Machine

open Sys2Proof.Stated

/-! ## What TICK and REINIT answer (42_sweep.md R115, R120) -/

theorem exec_tick (s : State) : exec .tick s = .next s.tick.hostNext := rfl

theorem exec_reinit (s : State) : exec .reinit s = .next { s with init := false }.hostNext := rfl

/-! ## One tick (42_sweep.md R115 to R119) -/

/-- The value a tick emits, where `LOWER` fits `DUTY`. -/
theorem tick_servoOut_toNat_of_lower_lt {s : State} (hlower : s.cfg.lower < 2 ^ 16) :
    s.tick.servoOut.toNat = emitted s := by
  rw [State.tick_servoOut, emitted]
  split
  · rfl
  · exact (BitVec.toNat_ofNat ..).trans (Nat.mod_eq_of_lt hlower)

/-- A tick is the transition of R115 to R119: the add and the subtract of 16-bit values are those modulo 2^16. -/
theorem sweepStepped_tick {s : State} (hlower : s.cfg.lower < 2 ^ 16) (hstep : s.cfg.stepUs < 2 ^ 16) :
    SweepStepped s s.tick := by
  have hservo := tick_servoOut_toNat_of_lower_lt hlower
  have hstepDuty : (stepDuty s.cfg).toNat = s.cfg.stepUs := (BitVec.toNat_ofNat ..).trans (Nat.mod_eq_of_lt hstep)
  refine ⟨s.tick_init, hservo, by rw [tick_ledOut_toNat, hservo], fun hd => ⟨?_, ?_⟩, fun hd => ⟨?_, ?_⟩⟩
  · rw [(s.tick_of_increasing hd).1, BitVec.toNat_add, hservo, hstepDuty]
  · rw [tick_dir_of_increasing hd]
    exact ⟨fun h => if_pos h, fun h => if_neg h.not_ge⟩
  · rw [(s.tick_of_decreasing hd).1, BitVec.toNat_sub, hservo, hstepDuty]
    omega
  · rw [tick_dir_of_decreasing hd]
    exact ⟨fun h => if_pos h, fun h => if_neg h.not_ge⟩

/-- What a tick leaves in the sweep's registers is a function of `DUTY`, `DIR`, `INIT` and the configuration (R129). -/
theorem tick_congr {s t : State} (hcfg : t.cfg = s.cfg) (hduty : t.duty = s.duty) (hdir : t.dir = s.dir)
    (hinit : t.init = s.init) :
    t.tick.servoOut = s.tick.servoOut ∧ t.tick.duty = s.tick.duty ∧ t.tick.dir = s.tick.dir := by
  have hservo : t.tick.servoOut = s.tick.servoOut := by simp only [State.tick_servoOut, hcfg, hduty, hinit]
  refine ⟨hservo, ?_⟩
  cases hd : s.dir with
  | increasing =>
    simp only [t.tick_of_increasing (hdir.trans hd), s.tick_of_increasing hd, hservo, hcfg, and_self]
  | decreasing =>
    simp only [t.tick_of_decreasing (hdir.trans hd), s.tick_of_decreasing hd, hservo, hcfg, and_self]

/-- After a tick while Increasing the sweep is Decreasing exactly from `UPPER` up. -/
theorem tick_dir_iff_of_increasing {s : State} (hd : s.dir = .increasing) :
    s.tick.dir = .decreasing ↔ s.cfg.upper ≤ s.tick.duty.toNat := by
  simp [tick_dir_of_increasing hd]

/-- After a tick while Decreasing the sweep is Decreasing exactly above `LOWER`. -/
theorem tick_dir_iff_of_decreasing {s : State} (hd : s.dir = .decreasing) :
    s.tick.dir = .decreasing ↔ s.cfg.lower < s.tick.duty.toNat := by
  simp [tick_dir_of_decreasing hd]

/-- Two directions differ exactly when one of them is Decreasing and the other is not. -/
theorem Direction.ne_iff_not_decreasing_iff (a b : Direction) : a ≠ b ↔ ¬(a = .decreasing ↔ b = .decreasing) := by
  cases a <;> cases b <;> simp

end Machine

namespace Stated

open Sys2Proof.Machine

/-! ## The closed form (42_sweep.md R125) -/

/-- Every value of the closed form is one of the 381 grid points from `LOWER` to `UPPER`. -/
theorem emittedAt_eq_grid (k : Nat) : ∃ m ≤ 380, emittedAt k = 500 + m * 5 := by
  unfold emittedAt
  split
  · exact ⟨(k - 1) % 760, by omega, by omega⟩
  · exact ⟨760 - (k - 1) % 760, by omega, by omega⟩

/-- On the rising half of a cycle the next value is one `STEP` up, and is `UPPER` at the end of that half. -/
theorem emittedAt_rising {k : Nat} (h : k % 760 < 380) :
    emittedAt (k + 2) = emittedAt (k + 1) + 5 ∧ (2400 ≤ emittedAt (k + 2) ↔ 380 ≤ (k + 1) % 760) := by
  rw [emittedAt, emittedAt, if_pos (by omega), if_pos (by omega)]
  omega

/-- On the falling half the next value is one `STEP` down, and is `LOWER` at the end of the cycle. -/
theorem emittedAt_falling {k : Nat} (h : 380 ≤ k % 760) :
    emittedAt (k + 2) + 5 = emittedAt (k + 1) ∧ (500 < emittedAt (k + 2) ↔ 380 ≤ (k + 1) % 760) := by
  unfold emittedAt
  split <;> split <;> omega

/-! ## The state after k ticks (42_sweep.md R124, R125) -/

/-- The sweep under the default parameters, `k` ticks after a start from `LOWER` upwards: the value the next tick emits,
and the direction. -/
structure SweepAt (k : Nat) (s : State) : Prop where
  params : DefaultSweep s.cfg
  emits : emitted s = emittedAt (k + 1)
  falls : s.dir = .decreasing ↔ 380 ≤ k % 760

theorem SweepAt.start {s : State} (hp : DefaultSweep s.cfg) (hinit : s.init = false) (hdir : s.dir = .increasing) :
    SweepAt 0 s where
  params := hp
  emits := by simp [emitted, hinit, hp.1, emittedAt]
  falls := by simp [hdir]

theorem SweepAt.sweepStepped {k : Nat} {s : State} (h : SweepAt k s) : SweepStepped s s.tick := by
  obtain ⟨hlower, -, hstep⟩ := h.params
  exact sweepStepped_tick (by omega) (by omega)

/-- A tick moves the sweep on by one: up on the rising half of the cycle, down on the falling one. -/
theorem SweepAt.tick {k : Nat} {s : State} (h : SweepAt k s) : SweepAt (k + 1) s.tick := by
  obtain ⟨-, -, -, hup, hdown⟩ := h.sweepStepped
  obtain ⟨hlower, hupper, hstep⟩ := h.params
  have hparams : DefaultSweep s.tick.cfg := s.tick_cfg ▸ h.params
  have hemits : emitted s.tick = s.tick.duty.toNat := by simp [emitted]
  have hnow := h.emits
  obtain ⟨m, hm, hgrid⟩ := emittedAt_eq_grid (k + 1)
  cases hd : s.dir with
  | increasing =>
    have hrising : k % 760 < 380 := by simpa [hd] using h.falls
    obtain ⟨hnext, hflip⟩ := emittedAt_rising hrising
    have hduty : s.tick.duty.toNat = emittedAt (k + 2) := by rw [(hup hd).1]; omega
    exact ⟨hparams, hemits.trans hduty, by rw [tick_dir_iff_of_increasing hd, hupper, hduty]; exact hflip⟩
  | decreasing =>
    obtain ⟨hnext, hflip⟩ := emittedAt_falling (h.falls.1 hd)
    have hduty : s.tick.duty.toNat = emittedAt (k + 2) := by have := (hdown hd).1; omega
    exact ⟨hparams, hemits.trans hduty, by rw [tick_dir_iff_of_decreasing hd, hlower, hduty]; exact hflip⟩

/-- A sweep started from `LOWER` upwards, after any number of ticks. -/
theorem SweepAt.iterate {s : State} (hp : DefaultSweep s.cfg) (hinit : s.init = false) (hdir : s.dir = .increasing)
    (k : Nat) : SweepAt k (State.tick^[k] s) := by
  induction k with
  | zero => exact .start hp hinit hdir
  | succ k ih => rw [Function.iterate_succ_apply']; exact ih.tick

end Stated

namespace Safety

open Sys2Proof.Machine Sys2Proof.Stated

/-! ## The statements -/

/-- Settles O24: tick `k` is a tick from the state after `k - 1`, and the state after it emits `DUTY` next. -/
theorem sweepFollowsTheClosedForm : Obligations.SweepFollowsTheClosedForm := by
  intro s k hp hinit hdir hk
  obtain ⟨n, rfl⟩ := Nat.exists_eq_add_one_of_ne_zero (Nat.one_le_iff_ne_zero.1 hk)
  have hbefore := SweepAt.iterate hp hinit hdir n
  have hafter := SweepAt.iterate hp hinit hdir (n + 1)
  rw [Function.iterate_succ_apply'] at hafter ⊢
  obtain ⟨hinit', hservo, hled, -⟩ := hbefore.sweepStepped
  rw [hbefore.emits] at hservo hled
  exact ⟨hservo, hled, by simpa [emitted] using hafter.emits, hinit', hafter.falls⟩

/-- Settles O25: the direction after `k` ticks is Decreasing exactly on the falling half of the cycle of 760. -/
theorem directionFlipsEvery380Ticks : Obligations.DirectionFlipsEvery380Ticks := by
  intro s hp hinit hdir
  have hfalls k := (SweepAt.iterate hp hinit hdir k).falls
  refine ⟨fun k hk => ?_, fun j _ => ?_⟩
  · rw [Direction.ne_iff_not_decreasing_iff, hfalls, hfalls]; omega
  · rw [hfalls]; omega

/-- Settles O26: both registers hold values of the closed form, which are grid points from `LOWER` to `UPPER`. -/
theorem sweepStaysInItsBounds : Obligations.SweepStaysInItsBounds := by
  intro s k hp hinit hdir hk v hv
  obtain ⟨hservo, -, hduty, -⟩ := sweepFollowsTheClosedForm s k hp hinit hdir hk
  obtain ⟨j, rfl⟩ : ∃ j, v = emittedAt j := by
    simp only [List.mem_cons, List.not_mem_nil, or_false] at hv
    rcases hv with rfl | rfl
    · exact ⟨k + 1, hduty⟩
    · exact ⟨k, hservo⟩
  obtain ⟨m, hm, hgrid⟩ := emittedAt_eq_grid j
  obtain ⟨hlower, hupper, hstep⟩ := hp
  rw [hlower, hupper, hstep, hgrid]
  exact ⟨by omega, by omega, m, rfl⟩

/-- Settles O21: the transition, then the host's place. -/
theorem tickAdvancesTheSweep : Obligations.TickAdvancesTheSweep := by
  intro s hwf
  have hbounds := Config.sweep_bounds hwf
  have hstep : SweepStepped s s.tick := sweepStepped_tick (by omega) (by omega)
  exact ⟨s.tick.hostNext, exec_tick s, hstep, by simp, s.tick_sameBut.comp (State.hostNext_sameBut _)⟩

/-- Settles O23: the first tick emits `LOWER` and turns below it; the second goes up to `LOWER`, short of `UPPER`. -/
theorem reinitWhileDecreasing : Obligations.ReinitWhileDecreasing := by
  intro s hwf hinit hdir
  obtain ⟨t, ht, ⟨htinit, htservo, -, -, htdown⟩, -, -, htcfg, -⟩ := tickAdvancesTheSweep s hwf
  obtain ⟨u, hu, ⟨-, huservo, -, huup, -⟩, -⟩ := tickAdvancesTheSweep t (htcfg ▸ hwf)
  obtain ⟨hsl, hlu, htop⟩ := Config.sweep_bounds hwf
  have hemitS : emitted s = s.cfg.lower := by simp [emitted, hinit]
  have hemitT : emitted t = t.duty.toNat := by simp [emitted, htinit]
  obtain ⟨htduty, htflip, -⟩ := htdown hdir
  have hduty : t.duty.toNat + s.cfg.stepUs = s.cfg.lower := by omega
  have htdir : t.dir = .increasing := htflip (by omega)
  obtain ⟨huduty, -, hukeep⟩ := huup htdir
  rw [htcfg, hemitT, hduty, Nat.mod_eq_of_lt (by omega)] at huduty
  exact ⟨t, u, ht, hu, htservo.trans hemitS, hduty, htdir, by omega, huduty, hukeep (by rw [htcfg]; omega)⟩

/-- Settles O22: one field and the host's place; the frame is REINIT's row of R22. -/
theorem reinitClearsInit : Obligations.ReinitClearsInit := by
  intro s
  have hexec := exec_reinit s
  exact ⟨_, hexec, rfl, exec_hpc hexec, exec_sameBut hexec⟩

/-- Settles O27: the results agree register by register; the frame is the sweep transition's. -/
theorem sweepIsAClosedMachine : Obligations.SweepIsAClosedMachine := by
  refine ⟨fun s t hcfg hduty hdir hinit r hr => ?_, State.tick_sameBut⟩
  obtain ⟨hservo, hduty', hdir'⟩ := tick_congr hcfg hduty hdir hinit
  simp only [List.mem_cons, List.not_mem_nil, or_false] at hr
  rcases hr with rfl | rfl | rfl | rfl | rfl
  · exact congrArg BitVec.toNat hduty'
  · exact congrArg Direction.bit hdir'
  · simp [State.read]
  · exact congrArg BitVec.toNat hservo
  · simp [State.read, State.tick_ledOut, hservo]

end Safety

end Sys2Proof

/-! # Scope: the scheduler's control operations

ACK, IRQMASK, IRQEN, DELAY and IDLE each write at most one field, then the host's place; their frames are their rows of
R22, and IDLE leaves the host without a step. -/

namespace Sys2Proof

namespace Machine

/-! ## What each operation answers (43_control.md R135 to R139) -/

theorem exec_ack (chans : BitVec 2) (s : State) :
    exec (.ack chans) s = .next { s with intRaw := clearBits s.intRaw chans }.hostNext := rfl

theorem exec_irqmask (chans : BitVec 2) (s : State) :
    exec (.irqmask chans) s = .next { s with intMask := chans }.hostNext := rfl

theorem exec_irqen (on : Bool) (s : State) : exec (.irqen on) s = .next { s with irqGen := on }.hostNext := rfl

theorem exec_delay (imm : BitVec 16) (s : State) : exec (.delay imm) s = .next s.hostNext := rfl

theorem exec_idle (s : State) : exec .idle s = .next { s with hostIdle := true }.hostNext := rfl

/-! ## An agent without a step (10_state.md R38) -/

theorem agentStep_eq_none_iff (a : Agent) (s : State) : agentStep a s = none ↔ enabled s a = false := by
  rw [← Option.isNone_iff_eq_none, ← Option.not_isSome, agentStep_isSome, Bool.not_eq_true']

theorem enabled_host_of_hostIdle {s : State} (h : s.hostIdle = true) : enabled s .host = false := by
  simp [enabled, h]

end Machine

namespace Safety

open Sys2Proof.Machine

/-! ## The statements -/

/-- Settles O28: write-1-to-clear read channel by channel; the frame is ACK's row of R22. -/
theorem ackClearsTheChosenConditions : Obligations.AckClearsTheChosenConditions := by
  intro b s
  have hexec := exec_ack b s
  exact ⟨_, hexec, hasChan_clearBits s.intRaw b, exec_hpc hexec, exec_sameBut hexec⟩

/-- Settles O29: the field read back is the operand; the frames are the rows of R22. -/
theorem maskAndEnableTakeTheOperand : Obligations.MaskAndEnableTakeTheOperand := by
  refine ⟨fun b s => ?_, fun on s => ?_⟩
  · have hexec := exec_irqmask b s
    exact ⟨_, hexec, rfl, exec_hpc hexec, exec_sameBut hexec⟩
  · have hexec := exec_irqen on s
    exact ⟨_, hexec, rfl, exec_hpc hexec, exec_sameBut hexec⟩

/-- Settles O30: the host's place is all that moves, whatever the length. -/
theorem delayOnlyMovesHpc : Obligations.DelayOnlyMovesHpc := exec_delay

/-- Settles O31: the host is idle after it, and an idle host has no step; the frame is IDLE's row of R22. -/
theorem idleEndsTheHost : Obligations.IdleEndsTheHost := by
  intro s
  have hexec := exec_idle s
  have hoff : enabled { s with hostIdle := true }.hostNext .host = false := enabled_host_of_hostIdle rfl
  exact ⟨_, hexec, rfl, exec_hpc hexec, exec_sameBut hexec, hoff, (agentStep_eq_none_iff ..).2 hoff⟩

end Safety

end Sys2Proof

/-! # Scope: the interrupt line, the timer's wrap events, the handler, and runs with interrupts

One TIMER step is read off the three things a tick can do to a channel; a step inside the handler is a TIMER step or a
phase; and the statements about runs rest on one fact of weak fairness (what only one agent can end, that agent ends) and
on one account of when an entry is due. -/

namespace Sys2Proof

namespace Machine

open Sys2Proof.Stated Sys2Proof.Safety

/-! ## Wrap events (60_exceptions.md R150, R151, R154) -/

theorem ChannelRegs.timerTick_of_atWrap {c : ChannelRegs} (h : c.wraps = true) :
    c.timerTick .atWrap = { c with wrapAct := c.wrap, ccAct := c.cc, ctr := 0 } :=
  c.timerTick_of_wraps .atWrap h

theorem ChannelRegs.timerTick_of_immediate {c : ChannelRegs} (h : c.wraps = true) :
    c.timerTick .immediate = { c with ctr := 0 } :=
  c.timerTick_of_wraps .immediate h

theorem ChannelRegs.timerTick_ctr_of_wraps (m : UpdateMode) {c : ChannelRegs} (h : c.wraps = true) :
    (c.timerTick m).ctr = 0 := by
  cases m with
  | atWrap => rw [timerTick_of_atWrap h]
  | immediate => rw [timerTick_of_immediate h]

theorem ChannelRegs.wraps_of_disabled {c : ChannelRegs} (h : c.en = false) : c.wraps = false := by
  simp [wraps, h]

theorem ChannelRegs.wraps_of_lt {c : ChannelRegs} (h : c.ctr + 1 < c.wrapAct) : c.wraps = false := by
  rw [Bool.eq_false_iff, ne_eq, wraps_iff]
  omega

/-- With active copies that stay, a wrap event only returns the count to 0, whatever the mode. -/
theorem timerTick_of_activeSteady {cfg : Config} {c : ChannelRegs} (h : ActiveSteady cfg c) (hw : c.wraps = true) :
    c.timerTick cfg.updateMode = { c with ctr := 0 } := by
  cases hm : cfg.updateMode with
  | immediate => exact ChannelRegs.timerTick_of_immediate hw
  | atWrap =>
    obtain ⟨hwrap, hcc⟩ := h.resolve_left (by simp [hm])
    rw [ChannelRegs.timerTick_of_atWrap hw, hwrap, hcc]

/-- Below the active wrap a tick counts modulo it, and ends the period exactly where it divides the next count. -/
theorem timerTick_of_ctr_lt {cfg : Config} {c : ChannelRegs} (hen : c.en = true) (h : ActiveSteady cfg c)
    (hctr : c.ctr < c.wrapAct) :
    c.timerTick cfg.updateMode = { c with ctr := (c.ctr + 1) % c.wrapAct } ∧
      c.wraps = decide (c.wrapAct ∣ c.ctr + 1) := by
  rcases Nat.lt_or_ge (c.ctr + 1) c.wrapAct with hlt | hge
  · rw [c.timerTick_of_lt _ hen hlt, Nat.mod_eq_of_lt hlt, ChannelRegs.wraps_of_lt hlt]
    exact ⟨rfl, (decide_eq_false (Nat.not_dvd_of_pos_of_lt (Nat.succ_pos _) hlt)).symm⟩
  · have hw : c.wraps = true := c.wraps_iff.2 ⟨hen, hge⟩
    have heq : c.ctr + 1 = c.wrapAct := by omega
    simp [timerTick_of_activeSteady h hw, hw, heq]

theorem ticks_succ (n : Nat) (s : State) : ticks (n + 1) s = (ticks n s).timerStep :=
  Function.iterate_succ_apply' ..

/-- The channel after `n` TIMER steps from count 0: only its count has moved, modulo the active wrap (R154). -/
theorem ticks_chan_of_activeSteady {s : State} {ch : Channel} (hen : (s.chan ch).en = true)
    (hctr : (s.chan ch).ctr = 0) (hpos : 1 ≤ (s.chan ch).wrapAct) (h : ActiveSteady s.cfg (s.chan ch)) (n : Nat) :
    (ticks n s).chan ch = { s.chan ch with ctr := n % (s.chan ch).wrapAct } := by
  induction n with
  | zero =>
    have hzero : { s.chan ch with ctr := 0 } = s.chan ch := by rw [← hctr]
    rw [Nat.zero_mod, hzero]; rfl
  | succ n ih =>
    have hcfg : (ticks n s).cfg = s.cfg := (ticks_sameBut n s).2.1
    obtain ⟨htick, -⟩ := timerTick_of_ctr_lt (c := { s.chan ch with ctr := n % (s.chan ch).wrapAct }) hen h
      (Nat.mod_lt n hpos)
    rw [ticks_succ, State.timerStep_chan, hcfg, ih, htick]
    simp

/-! ## The line (60_exceptions.md R155) -/

theorem intRaw_ne_zero_of_irq {s : State} (h : irq s = true) : s.intRaw ≠ 0#2 := by
  obtain ⟨-, ch, hraw, -⟩ := (irq_iff s).1 h
  exact (ne_zero_iff_hasChan _).2 ⟨ch, hraw⟩

theorem irq_of_intRaw_eq_zero {s : State} (h : s.intRaw = 0#2) : irq s = false :=
  Bool.eq_false_iff.2 fun hirq => intRaw_ne_zero_of_irq hirq h

/-! ## Operations beside the handler (60_exceptions.md R157) -/

theorem inHandler_not_mem_instrWrites (i : Instr) : .inHandler ∉ instrWrites i := by
  cases i <;> simp [instrWrites, applyWrites, sweepWrites]

theorem exec_inHandler {i : Instr} {s t : State} (h : exec i s = .next t) : t.inHandler = s.inHandler :=
  (exec_sameBut h).inHandler (inHandler_not_mem_instrWrites i)

/-- Of the operations only ACK may write `INT_RAW` (43_control.md R135). -/
theorem intRaw_mem_instrWrites {i : Instr} (h : .intRaw ∈ instrWrites i) : ∃ chans, i = .ack chans := by
  cases i <;> simp_all [instrWrites, applyWrites, sweepWrites]

theorem SameBut.intRaw {rs : List Reg} {s t : State} (h : SameBut rs s t) (hr : .intRaw ∉ rs) : t.intRaw = s.intRaw :=
  BitVec.eq_of_toNat_eq (h.1 _ hr)

/-- No operation sets a condition bit. -/
theorem exec_intRaw_eq_zero {i : Instr} {s t : State} (h : exec i s = .next t) (hraw : s.intRaw = 0#2) :
    t.intRaw = 0#2 := by
  by_cases hmem : .intRaw ∈ instrWrites i
  · obtain ⟨chans, rfl⟩ := intRaw_mem_instrWrites hmem
    rw [exec_ack] at h
    cases h
    simp [clearBits, hraw]
  · exact ((exec_sameBut h).intRaw hmem).trans hraw

/-! ## Steps in the handler (60_exceptions.md R157, R160) -/

theorem enabled_host_of_inHandler {s : State} (h : s.inHandler = true) : enabled s .host = false := by
  simp [enabled, h]

theorem enabled_host_of_length_le {s : State} (h : s.prog.length ≤ s.hpc) : enabled s .host = false := by
  simp [enabled, h]

/-- Where the host has no step, a step of another agent than the sequencer is the TIMER's. -/
theorem eq_timerStep_of_agentStep {a : Agent} {s t : State} (h : agentStep a s = some (.next t)) (ha : a ≠ .isr)
    (hhost : enabled s .host = false) : t = s.timerStep := by
  cases a with
  | host => simp [(agentStep_eq_none_iff .host s).2 hhost] at h
  | timer => cases h; rfl
  | isr => exact absurd rfl ha

/-- In the handler a step of the machine is a TIMER step or a phase, at the state with the turn used up. -/
theorem step_cases_of_inHandler {s t : State} (hin : s.inHandler = true) (h : step s = .next t) :
    ∃ l n, t = State.timerStep { s with sched := l, draws := n } ∨
      t = State.isrStep { s with sched := l, draws := n } := by
  obtain ⟨-, l, n, s', rfl, ⟨hout, -⟩ | ht | ⟨-, ht⟩ | ⟨hout, -⟩⟩ := step_next_cases h
  · simp [hin] at hout
  · exact ⟨l, n, .inl ht⟩
  · exact ⟨l, n, .inr ht⟩
  · simp [hin] at hout

theorem IsrPhase.number_le_ret (p : IsrPhase) : IsrPhase.number p ≤ IsrPhase.number .ret := by
  cases p <;> decide

/-- Phases before the last go on to the next one. -/
theorem State.isrStep_number_of_ne_ret {s : State} (h : s.isrPhase ≠ .ret) :
    IsrPhase.number s.isrStep.isrPhase = IsrPhase.number s.isrPhase + 1 := by
  rw [State.isrStep_isrPhase]
  cases hp : s.isrPhase with
  | ret => exact absurd hp h
  | ack | tick | servo | led => rfl

theorem State.isrStep_inHandler_of_ne_ret {s : State} (h : s.isrPhase ≠ .ret) : s.isrStep.inHandler = s.inHandler := by
  rw [State.isrStep_inHandler, if_neg h]

/-! ## When an entry is due (60_exceptions.md R152) -/

/-- A condition is set that no running handler is about to clear: the set bit that pays for the next entry. -/
def EntryDue (s : State) : Prop := s.intRaw ≠ 0#2 ∧ ¬(s.inHandler = true ∧ s.isrPhase = .ack)

theorem entryDue_of_irq {s : State} (hout : s.inHandler = false) (h : irq s = true) : EntryDue s :=
  ⟨intRaw_ne_zero_of_irq h, by simp [hout]⟩

/-- Entry takes what was due: its handler is about to clear it. -/
theorem not_entryDue_isrEnter (s : State) : ¬EntryDue s.isrEnter := fun h => h.2 ⟨rfl, rfl⟩

/-- Phase 0 clears the conditions; the other phases neither set one nor come to phase 0 in the handler. -/
theorem EntryDue.of_isrStep {s : State} (h : EntryDue s.isrStep) : EntryDue s := by
  obtain ⟨hraw, -⟩ := h
  have hframe := s.isrStep_sameBut
  unfold EntryDue
  cases hp : s.isrPhase with
  | ack => exact absurd (by simp [s.isrStep_of_ack hp]) hraw
  | tick | servo | led | ret =>
    rw [hp] at hframe
    exact ⟨hframe.intRaw (by decide) ▸ hraw, by simp⟩

/-- No operation makes an entry due. -/
theorem EntryDue.of_exec {i : Instr} {s t : State} (h : EntryDue t) (hout : s.inHandler = false)
    (hx : exec i s = .next t) : EntryDue s :=
  ⟨fun hraw => h.1 (exec_intRaw_eq_zero hx hraw), by simp [hout]⟩

/-- A TIMER step makes an entry due only by setting the first condition bit. -/
theorem EntryDue.of_timerStep {s : State} (h : EntryDue s.timerStep) : EntryDue s ∨ s.intRaw = 0#2 := by
  obtain ⟨-, hphase⟩ := h
  by_cases hraw : s.intRaw = 0#2
  · exact .inr hraw
  · exact .inl ⟨hraw, hphase⟩

end Machine

namespace Safety

open Sys2Proof.Machine Sys2Proof.Stated

/-! ## Steps of a run -/

theorem countBelow_succ (p : Nat → Bool) (n : Nat) : countBelow p (n + 1) = countBelow p n + (p n).toNat := by
  cases h : p n <;> simp [countBelow, List.range_succ, h]

theorem Run.entryAt_iff (r : Run) (n : Nat) :
    r.entryAt n = true ↔ r.agents n = .isr ∧ (r.states n).inHandler = false := by
  simp [Run.entryAt]

theorem Run.returnAt_iff (r : Run) (n : Nat) :
    r.returnAt n = true ↔ r.agents n = .isr ∧ (r.states n).inHandler = true ∧ (r.states n).isrPhase = .ret := by
  simp [Run.returnAt, and_assoc]

/-- The sequencer's step in the handler is the phase. -/
theorem Run.next_of_isr (r : Run) {n : Nat} (ha : r.agents n = .isr) (hin : (r.states n).inHandler = true) :
    r.states (n + 1) = (r.states n).isrStep := by
  have hmove := r.moves n
  rw [ha, agentStep_isr_of_inHandler _ hin, Option.some.injEq, Host.Outcome.next.injEq] at hmove
  exact hmove.symm

/-- Where the host has no step, a step that is not the sequencer's is the TIMER's. -/
theorem Run.next_of_host_off (r : Run) {n : Nat} (ha : r.agents n ≠ .isr) (hoff : enabled (r.states n) .host = false) :
    r.states (n + 1) = (r.states n).timerStep :=
  eq_timerStep_of_agentStep (r.moves n) ha hoff

/-- An entry was due before it (60_exceptions.md R156). -/
theorem Run.entryDue_of_entryAt (r : Run) {n : Nat} (h : r.entryAt n = true) : EntryDue (r.states n) := by
  obtain ⟨ha, hout⟩ := (r.entryAt_iff n).1 h
  have hmove := r.moves n
  rw [ha] at hmove
  rcases agentStep_cases hmove with ⟨⟨⟩, -⟩ | ⟨⟨⟩, -⟩ | ⟨-, hin, -⟩ | ⟨-, -, hirq, -⟩
  · simp [hout] at hin
  · exact entryDue_of_irq hout hirq

/-- The TIMER sets a condition bit that was 0, where none was set and one is. -/
theorem Run.setsAt_of_intRaw (r : Run) {n : Nat} (h : (r.states n).intRaw = 0#2)
    (h' : (r.states (n + 1)).intRaw ≠ 0#2) : r.setsAt n = true := by
  rw [Run.setsAt, h, BitVec.not_zero, BitVec.and_allOnes]
  exact bne_iff_ne.2 h'

/-- An entry is due after a step only where it was due before one that is no entry, or where a TIMER step set a bit. -/
theorem Run.entryDue_of_entryDue_succ (r : Run) {n : Nat} (h : EntryDue (r.states (n + 1))) :
    (EntryDue (r.states n) ∧ r.entryAt n = false) ∨ (r.agents n == .timer && r.setsAt n) = true := by
  rcases agentStep_cases (r.moves n) with
    ⟨ha, hout, -, -, w, i, -, -, hx⟩ | ⟨ha, ht⟩ | ⟨ha, hin, ht⟩ | ⟨-, -, -, ht⟩
  · exact .inl ⟨h.of_exec hout hx, by simp [Run.entryAt, ha]⟩
  · rcases (ht ▸ h).of_timerStep with hdue | hraw
    · exact .inl ⟨hdue, by simp [Run.entryAt, ha]⟩
    · exact .inr (by simp [ha, r.setsAt_of_intRaw hraw h.1])
  · exact .inl ⟨(ht ▸ h).of_isrStep, by simp [Run.entryAt, hin]⟩
  · exact absurd (ht ▸ h) (not_entryDue_isrEnter _)

/-- R152 with what carries it along a run: while an entry is due, a set bit is not yet spent. -/
theorem Run.entries_le_sets (r : Run) (hraw : (r.states 0).intRaw = 0#2) (n : Nat) :
    countBelow r.entryAt n ≤ countBelow (fun k => r.agents k == .timer && r.setsAt k) n ∧
      (EntryDue (r.states n) →
        countBelow r.entryAt n < countBelow (fun k => r.agents k == .timer && r.setsAt k) n) := by
  induction n with
  | zero => exact ⟨le_rfl, fun h => absurd hraw h.1⟩
  | succ n ih =>
    obtain ⟨hle, hlt⟩ := ih
    rw [countBelow_succ, countBelow_succ]
    have hpaid : countBelow r.entryAt n + (r.entryAt n).toNat ≤
        countBelow (fun k => r.agents k == .timer && r.setsAt k) n := by
      cases hentry : r.entryAt n with
      | false => exact hle
      | true => exact hlt (r.entryDue_of_entryAt hentry)
    refine ⟨hpaid.trans (Nat.le_add_right ..), fun hdue => ?_⟩
    rcases r.entryDue_of_entryDue_succ hdue with ⟨hdue', hentry⟩ | hset
    · rw [hentry]; exact Nat.lt_add_right _ (hlt hdue')
    · rw [hset]; exact Nat.lt_succ_of_le hpaid

/-! ## Weak fairness (60_exceptions.md R172) -/

/-- What gives an agent a step and is ended by no other agent lasts until that agent moves. -/
theorem Run.WeaklyFair.eventually_moves {r : Run} (hfair : r.WeaklyFair) {a : Agent} {P : State → Prop}
    (hen : ∀ s, P s → enabled s a = true) {n : Nat} (hn : P (r.states n))
    (hkeep : ∀ m, n ≤ m → P (r.states m) → r.agents m ≠ a → P (r.states (m + 1))) :
    ∃ m, n ≤ m ∧ P (r.states m) ∧ r.agents m = a := by
  by_contra! hnever
  have hP : ∀ m, n ≤ m → P (r.states m) := fun m hm =>
    Nat.le_induction hn (fun k hk ih => hkeep k hk ih (hnever k hk ih)) m hm
  obtain ⟨m, hm, ha⟩ := hfair a n fun m hm => hen _ (hP m hm)
  exact hnever m hm (hP m hm) ha

/-- The handler's next phase is run, whatever the TIMER does before it. -/
theorem Run.WeaklyFair.phase_runs {r : Run} (hfair : r.WeaklyFair) {n : Nat} (hin : (r.states n).inHandler = true) :
    ∃ m, n ≤ m ∧ (r.states m).inHandler = true ∧ (r.states m).isrPhase = (r.states n).isrPhase ∧
      r.agents m = .isr := by
  obtain ⟨m, hm, ⟨hinm, hphase⟩, ha⟩ := hfair.eventually_moves (a := .isr)
    (P := fun s => s.inHandler = true ∧ s.isrPhase = (r.states n).isrPhase)
    (fun s h => (enabled_isr_iff s).2 (.inl h.1)) ⟨hin, rfl⟩ fun m _ h ha => by
      rw [r.next_of_host_off ha (enabled_host_of_inHandler h.1)]
      exact h
  exact ⟨m, hm, hinm, hphase, ha⟩

/-- A handler `d` phases before its last runs to the end. -/
theorem Run.WeaklyFair.handler_returns {r : Run} (hfair : r.WeaklyFair) (d : Nat) {n : Nat}
    (hin : (r.states n).inHandler = true)
    (hd : IsrPhase.number (r.states n).isrPhase + d = IsrPhase.number .ret) :
    ∃ m, n ≤ m ∧ r.returnAt m = true := by
  induction d generalizing n with
  | zero =>
    obtain ⟨m, hm, hinm, hphase, ha⟩ := hfair.phase_runs hin
    exact ⟨m, hm, (r.returnAt_iff m).2 ⟨ha, hinm, hphase.trans (IsrPhase.number_inj hd)⟩⟩
  | succ d ih =>
    obtain ⟨m, hm, hinm, hphase, ha⟩ := hfair.phase_runs hin
    have hne : (r.states m).isrPhase ≠ .ret := fun hret => by
      rw [← hphase, hret] at hd
      omega
    have hnext := r.next_of_isr ha hinm
    obtain ⟨k, hk, hret⟩ := ih (n := m + 1)
      (by rw [hnext, State.isrStep_inHandler_of_ne_ret hne, hinm])
      (by rw [hnext, State.isrStep_number_of_ne_ret hne, hphase]; omega)
    exact ⟨k, by omega, hret⟩

/-- A line that is high outside the handler is entered, where no step takes it down before. -/
theorem Run.WeaklyFair.entry_of_line_kept {r : Run} (hfair : r.WeaklyFair) {n : Nat}
    (hout : (r.states n).inHandler = false) (hirq : irq (r.states n) = true)
    (hkeep : ∀ m, n ≤ m → r.agents m = .host → irq (r.states m) = true → irq (r.states (m + 1)) = true) :
    ∃ m, n ≤ m ∧ r.entryAt m = true := by
  obtain ⟨m, hm, ⟨houtm, -⟩, ha⟩ := hfair.eventually_moves (a := .isr)
    (P := fun s => s.inHandler = false ∧ irq s = true)
    (fun s h => (enabled_isr_iff s).2 (.inr h.2)) ⟨hout, hirq⟩ fun m hm h ha => by
      rcases agentStep_cases (r.moves m) with ⟨hhost, -, -, -, w, i, -, -, hx⟩ | ⟨-, ht⟩ | ⟨hisr, -⟩ | ⟨hisr, -⟩
      · exact ⟨(exec_inHandler hx).trans h.1, hkeep m hm hhost h.2⟩
      · rw [ht]; exact ⟨h.1, irq_timerStep _ h.2⟩
      · exact absurd hisr ha
      · exact absurd hisr ha
  exact ⟨m, hm, (r.entryAt_iff m).2 ⟨ha, houtm⟩⟩

/-- A line that is high outside the handler is entered, where the host has no step to take it down. -/
theorem Run.WeaklyFair.entry_of_host_off {r : Run} (hfair : r.WeaklyFair) {n : Nat}
    (hout : (r.states n).inHandler = false) (hirq : irq (r.states n) = true)
    (hoff : enabled (r.states n) .host = false) : ∃ m, n ≤ m ∧ r.entryAt m = true := by
  obtain ⟨m, hm, ⟨houtm, -⟩, ha⟩ := hfair.eventually_moves (a := .isr)
    (P := fun s => s.inHandler = false ∧ irq s = true ∧ enabled s .host = false)
    (fun s h => (enabled_isr_iff s).2 (.inr h.2.1)) ⟨hout, hirq, hoff⟩ fun m _ ⟨houtm, hirqm, hoffm⟩ ha => by
      rw [r.next_of_host_off ha hoffm]
      exact ⟨houtm, irq_timerStep _ hirqm, hoffm⟩
  exact ⟨m, hm, (r.entryAt_iff m).2 ⟨ha, houtm⟩⟩

/-! ## The statements -/

/-- Settles O58: a TIMER step only adds bits, and each entry is paid for by a set bit that phase 0 then clears. -/
theorem entriesNeverExceedSetConditions : Obligations.EntriesNeverExceedSetConditions :=
  ⟨fun s ch h => by simp [h], fun r hraw _ n => (r.entries_le_sets hraw n).1⟩

/-- Settles O59: by induction on the phases still to run, each run because only the sequencer leaves a phase. -/
theorem startedHandlerCompletes : Obligations.StartedHandlerCompletes := by
  intro r hfair n hin
  exact hfair.handler_returns _ hin (Nat.add_sub_of_le (IsrPhase.number_le_ret _))

/-- Settles O60: outside the handler only an operation takes the line down, and only entry leaves for the handler. -/
theorem raisedLineIsServed : Obligations.RaisedLineIsServed := by
  intro r hfair n hout hirq
  constructor
  · by_contra! hnever
    obtain ⟨m, hm, hentry⟩ := hfair.entry_of_line_kept hout hirq fun m hm hhost hirqm =>
      Bool.eq_true_of_not_eq_false ((hnever m hm).2 hhost hirqm)
    exact (hnever m hm).1 hentry
  · intro hdone
    have hoff : enabled (r.states n) .host = false := by
      rcases hdone with hidle | hend
      · exact enabled_host_of_hostIdle hidle
      · exact enabled_host_of_length_le hend
    exact hfair.entry_of_host_off hout hirq hoff

/-- Settles O33: the three things a TIMER step can do to a channel, and the condition bit each sets. -/
theorem timerStepAdvancesEveryEnabledChannel : Obligations.TimerStepAdvancesEveryEnabledChannel := by
  intro s
  refine ⟨s.timerStep, agentStep_timer s, s.timerStep_sameBut, fun ch => ?_⟩
  rw [State.timerStep_chan, hasChan_timerStep]
  refine ⟨fun hoff => ?_, fun hen hlt => ?_, fun hen hge => ?_⟩
  · rw [ChannelRegs.wraps_of_disabled hoff, Bool.or_false]
    exact ⟨ChannelRegs.timerTick_of_disabled _ _ hoff, rfl⟩
  · rw [ChannelRegs.wraps_of_lt hlt, Bool.or_false]
    exact ⟨ChannelRegs.timerTick_of_lt _ _ hen hlt, rfl⟩
  · have hw : (s.chan ch).wraps = true := (ChannelRegs.wraps_iff _).2 ⟨hen, hge⟩
    refine ⟨ChannelRegs.timerTick_ctr_of_wraps _ hw, by rw [hw, Bool.or_true], fun hm => ?_, fun hm => ?_⟩
    · rw [hm, ChannelRegs.timerTick_of_atWrap hw]; exact ⟨rfl, rfl⟩
    · rw [hm, ChannelRegs.timerTick_of_immediate hw]; exact ⟨rfl, rfl⟩

/-- Settles O34: the count after `n` steps is known, and the next step ends the period where W divides `n + 1`. -/
theorem wrapEventsComeEveryWrapTicks : Obligations.WrapEventsComeEveryWrapTicks := by
  refine ⟨fun s ch n hen hctr hpos hsteady => ?_, fun s ch hen hle => ?_⟩
  · have hchan := ticks_chan_of_activeSteady hen hctr hpos hsteady n
    obtain ⟨-, hwraps⟩ := timerTick_of_ctr_lt (c := { s.chan ch with ctr := n % (s.chan ch).wrapAct }) hen hsteady
      (Nat.mod_lt n hpos)
    refine ⟨by rw [hchan], ?_⟩
    rw [ticks_succ, hasChan_timerStep, hchan, hwraps]
    simp only [Nat.dvd_iff_mod_eq_zero, Nat.mod_add_mod]
  · have hw : (s.chan ch).wraps = true := (ChannelRegs.wraps_iff _).2 ⟨hen, by omega⟩
    rw [hasChan_timerStep, State.timerStep_chan, hw, Bool.or_true]
    exact ⟨rfl, ChannelRegs.timerTick_ctr_of_wraps _ hw⟩

/-- Settles O49: neither a TIMER step nor a phase writes the host's place. -/
theorem handlerSuspendsTheHost : Obligations.HandlerSuspendsTheHost := by
  refine fun s t hin => ⟨(agentStep_eq_none_iff ..).2 (enabled_host_of_inHandler hin), fun h => ?_⟩
  obtain ⟨l, n, rfl | rfl⟩ := step_cases_of_inHandler hin h
  · exact ⟨rfl, rfl⟩
  · have hframe := State.isrStep_sameBut { s with sched := l, draws := n }
    exact ⟨hframe.hpc (hpc_not_mem_phaseWrites _), hframe.hostIdle (hostIdle_not_mem_phaseWrites _)⟩

/-- Settles O50: a TIMER step leaves the phase, a phase goes on to the next, and phase 4 returns. -/
theorem handlerPhasesRunInOrder : Obligations.HandlerPhasesRunInOrder := by
  intro s t hin h
  obtain ⟨l, n, rfl | rfl⟩ := step_cases_of_inHandler hin h
  · exact .inl ⟨hin, rfl⟩
  · by_cases hret : s.isrPhase = .ret
    · rw [State.isrStep_of_ret { s with sched := l, draws := n } hret]
      exact .inr (.inr ⟨hret, rfl, rfl⟩)
    · have hne : State.isrPhase { s with sched := l, draws := n } ≠ .ret := hret
      exact .inr (.inl ⟨(State.isrStep_inHandler_of_ne_ret hne).trans hin, State.isrStep_number_of_ne_ret hne⟩)

/-- Settles O32: the line read channel by channel. -/
theorem lineIsEnabledAndMonitoredCondition : Obligations.LineIsEnabledAndMonitoredCondition := irq_iff

/-- Settles O35: outside the handler the sequencer's one step is entry. -/
theorem entryTakesTheInterrupt : Obligations.EntryTakesTheInterrupt := by
  intro s hout
  refine ⟨by simp [enabled_isr_iff, hout], fun hirq => ?_⟩
  exact ⟨s.isrEnter, agentStep_isr_of_irq s hout hirq, rfl, rfl, s.isrEnter_sameBut⟩

/-- Settles O36: phase 0 is the clear, then phase 1; with no condition set the line is low. -/
theorem phaseZeroClearsBothConditions : Obligations.PhaseZeroClearsBothConditions := by
  intro s hin hp
  exact ⟨s.isrAck.toPhase .tick, s.isrStep_of_ack hp ▸ agentStep_isr_of_inHandler s hin, rfl, irq_of_intRaw_eq_zero rfl,
    rfl, s.isrAck_sameBut.comp (s.isrAck.toPhase_sameBut .tick)⟩

/-- Settles O37: phase 1 and TICK run one transition, then write ISR_PHASE and HPC, neither a register of the sweep. -/
theorem phaseOneIsATickWithoutHpc : Obligations.PhaseOneIsATickWithoutHpc := by
  intro s hin hp
  have hphase := s.tick.toPhase_sameBut .servo
  have hhost := s.tick.hostNext_sameBut
  refine ⟨s.tick.toPhase .servo, s.tick.hostNext, s.isrStep_of_tick hp ▸ agentStep_isr_of_inHandler s hin, exec_tick s,
    rfl, fun r hr => ?_, s.tick_sameBut.comp hphase⟩
  have hother : r ∉ [Reg.isrPhase] ∧ r ∉ [Reg.hpc] := by revert r; decide
  exact (hphase.1 r hother.1).trans (hhost.1 r hother.2).symm

/-- Settles O39: the return leaves the line as it is, and the line alone enables entry after it. -/
theorem phaseFourReturns : Obligations.PhaseFourReturns := by
  intro s hin hp
  exact ⟨s.isrReturn, s.isrStep_of_ret hp ▸ agentStep_isr_of_inHandler s hin, rfl, rfl, s.isrReturn_sameBut,
    fun hirq => (enabled_isr_iff _).2 (.inr hirq)⟩

end Safety

end Sys2Proof

/-! # Scope: the machine after reset

Reset meets the invariant, from the lemma that says it of each part of the machine (70_reset_and_hazards.md R190). -/

namespace Sys2Proof

namespace Safety

/-- Settles O53: the base case of the invariant, proved beside the steps that keep it. -/
theorem resetMeetsTheInvariant : Obligations.ResetMeetsTheInvariant :=
  fun _ p hwf => machineInv_resetWith hwf p

end Safety

end Sys2Proof
